-- ==== Sys2Proof/Word.lean ====
section
/-! DEFINITION. Words, vectors and matrices: the data the registers hold. -/

namespace Sys2Proof

/-- One byte of an OOTX output buffer (20_memory.md R60). -/
abbrev Byte := BitVec 8

/-- An EdgeTimestamp: ticks modulo 2^32 (30_encoding.md R81). -/
abbrev Timestamp := BitVec 32

/-- A float register or operand, as a bit pattern. The format is the parameter NUMERICS (30_encoding.md R99), so
the word is wide enough for any format of at most 64 bits; a binary32 value stands in the low half.
DESIGN CHOICE, log 12. -/
abbrev FloatWord := BitVec 64

/-- An operand as it is passed beside the operation code: zero-extended (30_encoding.md R101). DESIGN CHOICE, log 1. -/
abbrev OperandWord := BitVec 64

/-- A 3-vector: a world origin, a direction, a position (10_state.md R32, R33). -/
structure Vec3 (α : Type) where
  x : α
  y : α
  z : α
deriving DecidableEq, Repr, Inhabited

/-- A 3×3 matrix as its three rows (30_encoding.md R98). -/
structure Mat3 (α : Type) where
  row0 : Vec3 α
  row1 : Vec3 α
  row2 : Vec3 α
deriving DecidableEq, Repr, Inhabited

/-- The four angle registers of a sensor: slot `2k + a` holds source `k`, axis `a` (10_state.md R33). -/
structure Angles (α : Type) where
  slot0 : α
  slot1 : α
  slot2 : α
  slot3 : α
deriving DecidableEq, Repr, Inhabited

end Sys2Proof
end

