-- ==== Sys2Proof/Syntax.lean ====
section
/-! DEFINITION. The fourteen operations of 30_encoding.md R100, one constructor per row of the opcode table,
with the operands in the order of R100, and the raw event that carries one. -/

namespace Sys2Proof

/-- Which edge a channel captures (30_encoding.md R84). -/
inductive Polarity where
  | falling
  | rising
deriving DecidableEq, Repr, Inhabited

/-- An event as the environment issues it: the 8-bit operation code and the operands passed beside it, each
zero-extended (30_encoding.md R100, R101). DESIGN CHOICE for the operand list, log 1. -/
structure Event where
  code : BitVec 8
  operands : List OperandWord
deriving DecidableEq, Repr, Inhabited

/-- The operations. Indices (`pin`, `ch`, `s`) are numbers; the populations they range over are parameters
(00_scope.md R9). -/
inductive Instr where
  /-- RESET, code 0x00 (70_reset_and_hazards.md R260). -/
  | reset
  /-- ECB.BEGIN, code 0x10 (40_edge_capture_buffer.md R110). -/
  | ecbBegin (pin : Nat) (pol : Polarity)
  /-- ECB.TOV, code 0x11 (40_edge_capture_buffer.md R112). -/
  | ecbTov
  /-- ECB.CAP, code 0x12 (40_edge_capture_buffer.md R113). -/
  | ecbCap (ch : Nat) (low : BitVec 16)
  /-- ECB.IRET, code 0x13 (40_edge_capture_buffer.md R116). -/
  | ecbIret
  /-- ECB.READ, code 0x14 (40_edge_capture_buffer.md R120). -/
  | ecbRead (ch : Nat)
  /-- PCL.POLL, code 0x20 (41_pulse_classifier.md R140). -/
  | pclPoll (sensor : Nat)
  /-- PCL.PULSE, code 0x21 (41_pulse_classifier.md R142). -/
  | pclPulse (sensor : Nat) (rise : Timestamp)
  /-- OOTX.ADD, code 0x30 (42_ootx_decoder.md R170). -/
  | ootxAdd (sensor : Nat) (bit : BitVec 32)
  /-- OOTX.ACK, code 0x31 (42_ootx_decoder.md R182). -/
  | ootxAck (sensor : Nat)
  /-- OOTX.RST, code 0x32 (42_ootx_decoder.md R171). -/
  | ootxRst (sensor : Nat)
  /-- SOL.SETSRC, code 0x40 (43_position_solver.md R201). -/
  | solSetsrc (k : BitVec 1) (rot : Mat3 FloatWord) (origin : Vec3 FloatWord)
  /-- SOL.UPDATE, code 0x41 (43_position_solver.md R202). -/
  | solUpdate (sensor : Nat) (slot : BitVec 8) (angle : FloatWord)
  /-- SOL.COMPUTE, code 0x42 (43_position_solver.md R203). -/
  | solCompute (sensor : Nat)
deriving DecidableEq, Repr

end Sys2Proof
end

