-- ==== Sys2Proof/Config.lean ====
section
/-! DEFINITION. The parameters of 00_scope.md R9 as one record, the illustrative instantiation I48 of R18, and the
free values of the model: constants without a body, of which nothing can be proved. -/

namespace Sys2Proof

/-- The (skip, rotor, data) triple of a sync pulse (30_encoding.md R87). -/
structure SyncBits where
  skip : Bool
  rotor : Bool
  data : Bool
deriving DecidableEq, Repr, Inhabited

/-- One entry of the sync table: `SYNC_CENTER[k]` in ticks and `SYNC_BITS[k]` (30_encoding.md R88). -/
structure SyncCode where
  center : Nat
  bits : SyncBits
deriving DecidableEq, Repr, Inhabited

/-- The parameter NUMERICS (00_scope.md R9, 93_implementation_defined.md U5): the nominal binary32 with round to
nearest even, or any other numerics, whose operations the model leaves uninterpreted. DESIGN CHOICE, log 12. -/
inductive Numerics where
  | binary32
  | platform (id : Nat)
deriving DecidableEq, Repr, Inhabited

/-- An axis of the space local to a light source (43_position_solver.md R204). -/
inductive Axis where
  | x
  | y
  | z
deriving DecidableEq, Repr, Inhabited

/-- The parameter `ray_local` (43_position_solver.md R204, 93_implementation_defined.md U6): the default plane normals, or
any other. R204 fixes the construction, two normals, one per angle, each in a plane of its own orthogonal to the other's,
their cross product, normalised; it leaves open the formula of the normals (`id`, uninterpreted), the axes (the normal of
angle `k` has no component along `axis k`) and the order of the product. DESIGN CHOICE for that form, log 13. -/
inductive RayLocal where
  | planeNormals
  | platform (id : Nat) (axis1 axis2 : Axis) (firstTimesSecond : Bool)
deriving DecidableEq, Repr, Inhabited

/-- The two capture channels of a sensor, `fall_ch(s)` and `rise_ch(s)` (41_pulse_classifier.md R155). -/
structure Wiring where
  fallCh : Nat
  riseCh : Nat
deriving DecidableEq, Repr, Inhabited

/-- The parameters of 00_scope.md R9. Time thresholds are in ticks. `N_PINS` is the length of `pinToChannel`,
`N_SENSORS` the length of `wiring`. No rule reads the tick rate `TICKS_PER_US`: R9 gives the thresholds nominally as
multiples of it, and each stands in its own field (log 8). -/
structure Config where
  ticksPerUs : Nat
  highWater : Nat
  tShort : Nat
  tWindow : Nat
  tOffset : Nat
  tSpan : Nat
  tGap : Nat
  sync : List SyncCode
  syncTol : Nat
  solveEps : FloatWord
  idxW : Nat
  nChannels : Nat
  pinToChannel : List Nat
  wiring : List Wiring
  numerics : Numerics
  rayLocal : RayLocal
  guardFallthrough : Bool
deriving DecidableEq, Repr, Inhabited

/-- `N_PINS` (00_scope.md R9). -/
def Config.nPins (c : Config) : Nat := c.pinToChannel.length

/-- `N_SENSORS` (00_scope.md R9). -/
def Config.nSensors (c : Config) : Nat := c.wiring.length

/-- The sync table of I48: centres 3000 + 500 k, and `SYNC_BITS[k] = (k[2], k[0], k[1])` (00_scope.md R18).
PRESUMED by the spec from general knowledge (30_encoding.md R88), log 14. -/
def Config.syncI48 : List SyncCode :=
  (List.range 8).map fun k => ⟨3000 + 500 * k, ⟨k.testBit 2, k.testBit 0, k.testBit 1⟩⟩

/-- The illustrative instantiation I48 (00_scope.md R18): 48 ticks per microsecond, so each threshold is the nominal
microseconds of R9 times 48. `solveEps` is the binary32 number nearest 0.00001. No definition of the model but
`State.reset` names it. DESIGN CHOICE, log 8. -/
def Config.i48 : Config where
  ticksPerUs := 48
  highWater := 57344
  tShort := 15 * 48
  tWindow := 8000 * 48
  tOffset := 4000 * 48
  tSpan := 8333 * 48
  tGap := 800 * 48
  sync := Config.syncI48
  syncTol := 200
  solveEps := 0x3727C5AC
  idxW := 32
  nChannels := 4
  pinToChannel := [0, 1, 2, 3, 0]
  wiring := [⟨0, 1⟩, ⟨2, 3⟩]
  numerics := .binary32
  rayLocal := .planeNormals
  guardFallthrough := false

/-! ## Free values (log 6, 7, 15, 16): the first argument is the draw counter of State. -/

/-- `polarity[ch]` after RESET, unspecified by 10_state.md R38: arguments draw, channel. -/
opaque Config.anyPolarity : Nat → Nat → Polarity

/-- The float registers of a sensor after RESET, unspecified by 10_state.md R38: arguments draw, sensor, register. -/
opaque Config.anySensorFloat : Nat → Nat → Nat → FloatWord

/-- The float registers of a light source after RESET, unspecified by 10_state.md R38: arguments draw, source,
register. -/
opaque Config.anySourceFloat : Nat → Nat → Nat → FloatWord

/-- What a ring-buffer slot that nothing has written holds (10_state.md R38, 93_implementation_defined.md U11). -/
opaque Config.anyTimestamp : Nat → Timestamp

/-- The angle of a valid sweep when NUMERICS gives its formula no finite value (41_pulse_classifier.md R144 states
no result there). -/
opaque Config.anyAngle : Nat → FloatWord

/-- The verdict of a solve that meets a non-finite value (43_position_solver.md R213, U16). -/
opaque Config.anyVerdict : Nat → Bool

/-- The position such a solve leaves (43_position_solver.md R213, U16). -/
opaque Config.anyPosition : Nat → Vec3 FloatWord

/-- The distance such a solve leaves (43_position_solver.md R213, U16). -/
opaque Config.anyDistance : Nat → FloatWord

/-! ## The uninterpreted numerics `Numerics.platform id` (log 12) and ray construction (log 13). `none` stands for
a result that is no finite number. -/

/-- The float operations of the rules (41_pulse_classifier.md R154, 43_position_solver.md R203 to R209). -/
inductive FloatOp where
  | add | sub | mul | div
deriving DecidableEq, Repr, Inhabited

/-- The float functions of the rules. -/
inductive FloatFn where
  | sqrt | sin | cos
deriving DecidableEq, Repr, Inhabited

/-- A two-operand operation of numerics `id`. -/
opaque Config.platformOp : Nat → FloatOp → FloatWord → FloatWord → Option FloatWord

/-- A one-operand function of numerics `id`. -/
opaque Config.platformFn : Nat → FloatFn → FloatWord → Option FloatWord

/-- Negation in numerics `id`. -/
opaque Config.platformNeg : Nat → FloatWord → FloatWord

/-- Conversion of an unsigned integer in numerics `id`. -/
opaque Config.platformOfNat : Nat → Nat → Option FloatWord

/-- The number zero of numerics `id`. -/
def Config.platformZero (id : Nat) : FloatWord := (Config.platformOfNat id 0).getD 0

/-- The constant pi of numerics `id`. -/
opaque Config.platformPi : Nat → FloatWord

/-- Comparison `<` of numerics `id`. -/
opaque Config.platformLt : Nat → FloatWord → FloatWord → Bool

/-- Whether a word is a finite number of numerics `id`. -/
opaque Config.platformFinite : Nat → FloatWord → Bool

/-- The two components, in the order of the axes, of the normal that construction `id` gives angle number 1 or 2; the
second argument is that number. -/
opaque Config.platformNormal : Nat → Nat → FloatWord → Option (FloatWord × FloatWord)

end Sys2Proof
end

