-- ==== Sys2Proof/WellFormed.lean ====
section
/-! DEFINITION. Which operations are well formed (30_encoding.md R101, R102) and which instantiations of the
parameters meet 00_scope.md R10. -/

namespace Sys2Proof

/-- The index operands of an operation, as far as they must fit an operand word. -/
def Instr.indices : Instr → List Nat
  | .reset => []
  | .ecbBegin pin _ => [pin]
  | .ecbTov => []
  | .ecbCap ch _ => [ch]
  | .ecbIret => []
  | .ecbRead ch => [ch]
  | .pclPoll i => [i]
  | .pclPulse i _ => [i]
  | .ootxAdd i _ => [i]
  | .ootxAck i => [i]
  | .ootxRst i => [i]
  | .solSetsrc _ _ _ => []
  | .solUpdate i _ _ => [i]
  | .solCompute i => [i]

/-- Every index fits the operand word it is passed in (log 1): such an operation has an encoding. -/
def Instr.fits (i : Instr) : Bool := i.indices.all fun n => decide (n < 2 ^ 64)

/-- The index operand lies in the range R102 gives it: `pin < N_PINS`, `ch < N_CHANNELS`, `s < N_SENSORS`. -/
def Instr.inRange (c : Config) : Instr → Bool
  | .reset => true
  | .ecbBegin pin _ => decide (pin < c.nPins)
  | .ecbTov => true
  | .ecbCap ch _ => decide (ch < c.nChannels)
  | .ecbIret => true
  | .ecbRead ch => decide (ch < c.nChannels)
  | .pclPoll i => decide (i < c.nSensors)
  | .pclPulse i _ => decide (i < c.nSensors)
  | .ootxAdd i _ => decide (i < c.nSensors)
  | .ootxAck i => decide (i < c.nSensors)
  | .ootxRst i => decide (i < c.nSensors)
  | .solSetsrc _ _ _ => true
  | .solUpdate i _ _ => decide (i < c.nSensors)
  | .solCompute i => decide (i < c.nSensors)

/-- An operation that has an encoding and whose indices are in range. -/
def Instr.wellFormed (c : Config) (i : Instr) : Bool := i.fits && i.inRange c

/-! ## The constraints of 00_scope.md R10 on an instantiation, one check each. -/

/-- `0 < HIGH_WATER < 65536`. -/
def Config.highWaterOk (c : Config) : Bool := decide (0 < c.highWater ∧ c.highWater < 65536)

/-- The five time thresholds are positive. -/
def Config.thresholdsOk (c : Config) : Bool :=
  decide (0 < c.tShort ∧ 0 < c.tGap ∧ 0 < c.tWindow ∧ 0 < c.tOffset ∧ 0 < c.tSpan)

/-- Two sync windows leave a width strictly between them. -/
def Config.windowsApart (c : Config) (a b : SyncCode) : Bool :=
  decide (a.center + c.syncTol + 1 < b.center - c.syncTol ∨ b.center + c.syncTol + 1 < a.center - c.syncTol)

/-- Eight sync codes, every window above `T_SHORT`, the windows pairwise apart, the triples pairwise distinct. -/
def Config.syncOk (c : Config) : Bool :=
  decide (c.sync.length = 8) &&
  c.sync.all (fun a => decide (c.tShort + c.syncTol < a.center)) &&
  decide (c.sync.Pairwise fun a b => c.windowsApart a b = true) &&
  decide (c.sync.Pairwise fun a b => a.bits ≠ b.bits)

/-- `SOLVE_EPS > 0`: for the nominal numerics a positive finite binary32 number, for any other a finite number of it
above its zero in its own order (log 12). -/
def Config.epsOk (c : Config) : Bool :=
  match c.numerics with
  | .binary32 => decide (0 < c.solveEps.toNat ∧ c.solveEps.toNat < 0x7F800000)
  | .platform id => Config.platformFinite id c.solveEps && Config.platformLt id (Config.platformZero id) c.solveEps

/-- `IDX_W ≥ 7`. -/
def Config.idxOk (c : Config) : Bool := decide (7 ≤ c.idxW)

/-- `pin_to_channel` maps every pin to a channel (40_edge_capture_buffer.md R111); the two channels of a sensor
exist and are distinct (41_pulse_classifier.md R155). -/
def Config.mapsOk (c : Config) : Bool :=
  c.pinToChannel.all (fun ch => decide (ch < c.nChannels)) &&
  c.wiring.all (fun w => decide (w.fallCh < c.nChannels ∧ w.riseCh < c.nChannels ∧ w.fallCh ≠ w.riseCh))

/-- The two normals of `ray_local` lie in orthogonal planes (43_position_solver.md R204); the default's do. -/
def Config.rayOk (c : Config) : Bool :=
  match c.rayLocal with
  | .planeNormals => true
  | .platform _ axis1 axis2 _ => decide (axis1 ≠ axis2)

/-- An instantiation that meets 00_scope.md R10, the demand of R204 on the axes and the totality of the maps. -/
def Config.wellFormed (c : Config) : Bool :=
  c.rayOk && c.highWaterOk && c.thresholdsOk && c.syncOk && c.epsOk && c.idxOk && c.mapsOk

end Sys2Proof
end

