-- ==== Sys2Proof/Decode.lean ====
section
/-! DEFINITION. From an event (operation code and operand words) to an operation, total, rejecting by name; and the
encoder, from the same table (30_encoding.md R100 to R103). -/

namespace Sys2Proof

/-- Why an event is no operation: its code is not in R100 (R102), it does not have the number of operands R100
gives its code, or an operand word exceeds the width R100 gives it. -/
inductive DecodeError where
  | unknownCode
  | operandCount
  | operandRange
deriving DecidableEq, Repr

/-- How many operands the table of R100 gives a code; none for a code that is not in it. -/
def operandCount (code : BitVec 8) : Nat :=
  match code.toNat with
  | 0x10 => 2
  | 0x12 => 2
  | 0x14 => 1
  | 0x20 => 1
  | 0x21 => 2
  | 0x30 => 2
  | 0x31 => 1
  | 0x32 => 1
  | 0x40 => 13
  | 0x41 => 3
  | 0x42 => 1
  | _ => 0

/-- The codes of R100. -/
def operationCodes : List (BitVec 8) :=
  [0x00, 0x10, 0x11, 0x12, 0x13, 0x14, 0x20, 0x21, 0x30, 0x31, 0x32, 0x40, 0x41, 0x42]

/-- An operand of `w` bits out of a zero-extended operand word (R101). -/
def operandBits (w : Nat) (o : OperandWord) : Except DecodeError (BitVec w) :=
  if o.toNat < 2 ^ w then .ok (o.setWidth w) else .error .operandRange

/-- The polarity operand: FALLING = 0, RISING = 1 (R84). -/
def operandPolarity (o : OperandWord) : Except DecodeError Polarity :=
  if o = 0 then .ok .falling else if o = 1 then .ok .rising else .error .operandRange

/-- An operation without operands. -/
def decodeNone (i : Instr) : List OperandWord → Except DecodeError Instr
  | [] => .ok i
  | _ => .error .operandCount

/-- An operation with one index operand. -/
def decodeIndex (mk : Nat → Instr) : List OperandWord → Except DecodeError Instr
  | [i] => .ok (mk i.toNat)
  | _ => .error .operandCount

/-- ECB.BEGIN: `pin`, `pol`. -/
def decodeBegin : List OperandWord → Except DecodeError Instr
  | [pin, pol] => (operandPolarity pol).map fun p => .ecbBegin pin.toNat p
  | _ => .error .operandCount

/-- ECB.CAP: `ch`, `low` (16 bits). -/
def decodeCap : List OperandWord → Except DecodeError Instr
  | [ch, low] => (operandBits 16 low).map fun l => .ecbCap ch.toNat l
  | _ => .error .operandCount

/-- PCL.PULSE: `s`, `rise` (32 bits). -/
def decodePulse : List OperandWord → Except DecodeError Instr
  | [i, rise] => (operandBits 32 rise).map fun r => .pclPulse i.toNat r
  | _ => .error .operandCount

/-- OOTX.ADD: `s`, `bit` (32 bits, unsigned). -/
def decodeAdd : List OperandWord → Except DecodeError Instr
  | [i, bit] => (operandBits 32 bit).map fun b => .ootxAdd i.toNat b
  | _ => .error .operandCount

/-- SOL.SETSRC: `k` (1 bit), the 9 entries of `rot` in row-major order, the 3 components of `origin` (R98). -/
def decodeSetsrc : List OperandWord → Except DecodeError Instr
  | [k, r00, r01, r02, r10, r11, r12, r20, r21, r22, ox, oy, oz] =>
    (operandBits 1 k).map fun k =>
      .solSetsrc k ⟨⟨r00, r01, r02⟩, ⟨r10, r11, r12⟩, ⟨r20, r21, r22⟩⟩ ⟨ox, oy, oz⟩
  | _ => .error .operandCount

/-- SOL.UPDATE: `s`, `slot` (8 bits), `angle` (float). -/
def decodeUpdate : List OperandWord → Except DecodeError Instr
  | [i, slot, angle] => (operandBits 8 slot).map fun sl => .solUpdate i.toNat sl angle
  | _ => .error .operandCount

/-- The operation of an event, by the table of R100; every other code names no operation (R102). -/
def decode (e : Event) : Except DecodeError Instr :=
  match e.code.toNat with
  | 0x00 => decodeNone .reset e.operands
  | 0x10 => decodeBegin e.operands
  | 0x11 => decodeNone .ecbTov e.operands
  | 0x12 => decodeCap e.operands
  | 0x13 => decodeNone .ecbIret e.operands
  | 0x14 => decodeIndex .ecbRead e.operands
  | 0x20 => decodeIndex .pclPoll e.operands
  | 0x21 => decodePulse e.operands
  | 0x30 => decodeAdd e.operands
  | 0x31 => decodeIndex .ootxAck e.operands
  | 0x32 => decodeIndex .ootxRst e.operands
  | 0x40 => decodeSetsrc e.operands
  | 0x41 => decodeUpdate e.operands
  | 0x42 => decodeIndex .solCompute e.operands
  | _ => .error .unknownCode

/-- The operand word of an index. -/
def indexWord (n : Nat) : OperandWord := BitVec.ofNat 64 n

/-- The operand word of a polarity (R84). -/
def polarityWord : Polarity → OperandWord
  | .falling => 0
  | .rising => 1

/-- The operand words of a vector, component by component. -/
def vecWords (v : Vec3 FloatWord) : List OperandWord := [v.x, v.y, v.z]

/-- The event of an operation, by the table of R100; narrower operands are zero-extended (R101). -/
def encode : Instr → Event
  | .reset => ⟨0x00, []⟩
  | .ecbBegin pin pol => ⟨0x10, [indexWord pin, polarityWord pol]⟩
  | .ecbTov => ⟨0x11, []⟩
  | .ecbCap ch low => ⟨0x12, [indexWord ch, low.setWidth 64]⟩
  | .ecbIret => ⟨0x13, []⟩
  | .ecbRead ch => ⟨0x14, [indexWord ch]⟩
  | .pclPoll i => ⟨0x20, [indexWord i]⟩
  | .pclPulse i rise => ⟨0x21, [indexWord i, rise.setWidth 64]⟩
  | .ootxAdd i bit => ⟨0x30, [indexWord i, bit.setWidth 64]⟩
  | .ootxAck i => ⟨0x31, [indexWord i]⟩
  | .ootxRst i => ⟨0x32, [indexWord i]⟩
  | .solSetsrc k rot origin =>
    ⟨0x40, [k.setWidth 64] ++ vecWords rot.row0 ++ vecWords rot.row1 ++ vecWords rot.row2 ++ vecWords origin⟩
  | .solUpdate i slot angle => ⟨0x41, [indexWord i, slot.setWidth 64, angle]⟩
  | .solCompute i => ⟨0x42, [indexWord i]⟩

/-- The event whose bits are `w`: the code in bits 7..0, operand `j` in bits `64 j + 71 .. 64 j + 8`; every bit from
`nbits` up is 0. It has as many operands as R100 gives its code. -/
def eventOfBits (nbits w : Nat) : Event :=
  let v := w % 2 ^ nbits
  let code := BitVec.ofNat 8 v
  ⟨code, (List.range (operandCount code)).map fun j => BitVec.ofNat 64 (v >>> (8 + 64 * j))⟩

/-- The operation the decoder reads from an event whose bits are `w`, numbered as spec/opcode_table.json does. -/
def decodeTableWord (nbits w : Nat) : Option Instr := (decode (eventOfBits nbits w)).toOption

end Sys2Proof
end

