-- ==== Sys2Proof/Machine/State.lean ====
section
/-! DEFINITION. The state of the machine as plain data (10_state.md), what an operation answers, the reasons a step
can stop, and the state after reset. -/

namespace Sys2Proof.Machine

/-! ## Memory -/

/-- One internal memory of `w`-bit cells (20_memory.md R60): the cells that something has written, as pairs of an
index and a value, indices strictly rising. An unlisted index holds no known value (log 7). `Bank 8` is a list of
Host.Cell. -/
abbrev Bank (w : Nat) := List (Nat × BitVec w)

/-- The canonical form of a bank with `size` cells: indices strictly rising and below `size`. An unlisted cell reads
as no value, so no entry can equal what an unlisted cell reads as. -/
abbrev Memory.wf {w : Nat} (size : Nat) (b : Bank w) : Prop :=
  b.Pairwise (fun p q => p.1 < q.1) ∧ ∀ p ∈ b, p.1 < size

/-! ## Registers -/

/-- Capture state of one channel (10_state.md R23, R24). -/
structure Channel where
  /-- Bit `ch` of the mask `claimed` (R23). -/
  claimed : Bool
  polarity : Polarity
  /-- `write_index[ch]`, modulo 2^IDX_W. -/
  writeIndex : Nat
  /-- `read_index[ch]`, modulo 2^IDX_W. -/
  readIndex : Nat
  /-- `RB[ch]`, 64 words of 32 bits. -/
  rb : Bank 32
deriving DecidableEq, Repr

/-- `lh_id[s]` (30_encoding.md R90): base station 0, base station 1 or the sentinel "unknown". -/
inductive LhId where
  | zero
  | one
  | unknown
deriving DecidableEq, Repr

/-- SensorDecodeState (10_state.md R27). -/
structure DecodeState where
  lastRise : Timestamp
  lastFall : Timestamp
  zeroTime : Timestamp
  axis : Bool
  lhId : LhId
  gotSweep : Bool
  gotSkip : Bool
  gotNotSkip : Bool
deriving DecidableEq, Repr

/-- `mode[s]` (10_state.md R30): which part of a frame is awaited. -/
inductive FrameMode where
  | preamble
  | length
  | data
deriving DecidableEq, Repr

/-- OOTXFrameState (10_state.md R30). -/
structure FrameState where
  acc : BitVec 18
  /-- Bits held in `acc`, 0 to 18 (log 10). -/
  nbits : Nat
  mode : FrameMode
  /-- `OB[s]`, 256 bytes. -/
  ob : Bank 8
  /-- Bytes written for the current frame, 0 to 256 (log 10). -/
  rxCount : Nat
  /-- Total length of the current or last frame, 0 to 256 (log 10). -/
  length : Nat
  padding : Bool
  complete : Bool
deriving DecidableEq, Repr

/-- SensorFix (10_state.md R33). -/
structure SensorFix where
  angle : Angles FloatWord
  /-- The freshness mask; bit `i` belongs to slot `i` (30_encoding.md R91). -/
  fresh : BitVec 4
  pos : Vec3 FloatWord
  dist : FloatWord
deriving DecidableEq, Repr

/-- What one sensor owns (10_state.md R20). -/
structure Sensor where
  decode : DecodeState
  frame : FrameState
  fix : SensorFix
deriving DecidableEq, Repr

/-- LightSource record (10_state.md R32). -/
structure LightSource where
  rot : Mat3 FloatWord
  origin : Vec3 FloatWord
  /-- `src_valid[k]`. -/
  valid : Bool
deriving DecidableEq, Repr

/-! ## What an operation answers (00_scope.md R13; log 11) -/

/-- The five conditions of 60_exceptions.md R230, with the channel or sensor concerned. -/
inductive Condition where
  | sampleLoss (ch : Nat)
  | protocolResync (sensor : Nat)
  | lengthOverflow (sensor : Nat)
  | geometryFailure (sensor : Nat)
  | configurationConflict (ch : Nat)
deriving DecidableEq, Repr

/-- The answer of ECB.READ (30_encoding.md R83): with NoData there is no timestamp to use. -/
inductive ReadResult where
  | noData
  | sample (ts : Timestamp)
  | sampleWithLoss (ts : Timestamp)
deriving DecidableEq, Repr

/-- The PulseObservation of one rising edge (10_state.md R28, 41_pulse_classifier.md R143). -/
structure Observation where
  rise : Timestamp
  length : Timestamp
  duty : Timestamp
deriving DecidableEq, Repr

/-- The record of PCL.PULSE (30_encoding.md R92), one constructor per `kind`, each with the fields 41_pulse_classifier.md
R157 lists for it. -/
inductive PulseRecord where
  | sweepValid (obs : Observation) (slot : Nat) (angle : FloatWord) (newPosition : Bool)
  | sweepInvalid (obs : Observation)
  | guard (obs : Observation)
  | sync (obs : Observation) (bits : SyncBits) (bitForwarded : Bool)
  | unmatched (obs : Observation)
deriving DecidableEq, Repr

/-- The result an operation returns (30_encoding.md R100, column "result"). -/
inductive Result where
  /-- The operation returns nothing. -/
  | nothing
  /-- ECB.BEGIN: success or failure. -/
  | begun (success : Bool)
  /-- ECB.READ. -/
  | read (r : ReadResult)
  /-- PCL.POLL: the `loss` bit and the record; no record is `kind = NONE`. -/
  | polled (loss : Bool) (record : Option PulseRecord)
  /-- PCL.PULSE called alone. -/
  | pulse (record : PulseRecord)
  /-- SOL.UPDATE: whether a new position is available. -/
  | updated (newPosition : Bool)
  /-- SOL.COMPUTE: whether the solve succeeded. -/
  | computed (success : Bool)
deriving DecidableEq, Repr

/-- The output of the last operation: its result and the conditions it raised, in program order
(60_exceptions.md R237). -/
structure Output where
  result : Result
  conditions : List Condition
deriving DecidableEq, Repr

/-! ## The environment's part (log 2, 3) -/

/-- A whole interrupt service (20_memory.md R69): optionally one ECB.TOV, then ECB.CAPs (channel and captured low
word), then one ECB.IRET. -/
structure Service where
  overflow : Bool
  captures : List (Nat × BitVec 16)
deriving DecidableEq, Repr

/-! ## The machine -/

/-- The whole state. The first block is the spec's (10_state.md), the second the model's own (INVENTORY.md). -/
structure State where
  ovfCounter : BitVec 16
  ovfBusy : Bool
  channels : List Channel
  sensors : List Sensor
  src0 : LightSource
  src1 : LightSource
  /-- The parameters (00_scope.md R9); no step writes them (log 8). -/
  config : Config
  /-- Events issued and not yet taken, oldest first (log 2). -/
  inbox : List Event
  /-- For each PCL.POLL to come, the services at its interleave point (log 3). -/
  interleave : List (List Service)
  /-- An interrupt service is open (20_memory.md R69; log 4). -/
  inService : Bool
  /-- How many free values have been drawn (log 6). -/
  draws : Nat
  /-- Result and conditions of the last operation (log 11). -/
  output : Output
deriving DecidableEq, Repr

/-! ## Reasons a step can stop -/

/-- There is none: "fault and stuck are not used: this hardware has no fault mechanism and no state in which it
stops" (93_implementation_defined.md). Nobody raises a fault, which is safe (log 17). -/
inductive Fault where
deriving DecidableEq, Repr

/-- Where the spec says `refuse`: it gives the operation no meaning in that state (00_scope.md R13). Each is safe: no
claim about a next state can be proved of a refused step. -/
inductive Refusal where
  /-- Raised by exec for an operation that has no meaning in the model yet; none is left. Safe. -/
  | notModelled (mnemonic : String)
  /-- Raised by step: the code is not in R100 (30_encoding.md R102). Safe. -/
  | unknownCode (code : BitVec 8)
  /-- Raised by step: the event has not the number of operands R100 gives its code. Safe (log 1). -/
  | operandCount (code : BitVec 8)
  /-- Raised by step: an operand word exceeds the width R100 gives it. Safe (log 1). -/
  | operandRange (code : BitVec 8)
  /-- Raised by ECB.BEGIN: `pin ≥ N_PINS` (30_encoding.md R102). Safe. -/
  | pinOutOfRange (pin : Nat)
  /-- Raised by ECB.CAP, ECB.READ, by ECB.BEGIN and PCL.POLL through the parameters, and by a capture at the
  interleave point: no such channel (30_encoding.md R102). Safe. -/
  | channelOutOfRange
  /-- Raised by the operations of a sensor: `s ≥ N_SENSORS` (30_encoding.md R102). Safe. -/
  | sensorOutOfRange (sensor : Nat)
  /-- Raised by every POLL operation while an interrupt service is open (70_reset_and_hazards.md R265, U15). Safe. -/
  | pollInsideService
  /-- Raised by ECB.TOV when the service is already open (20_memory.md R69, U15). Safe. -/
  | overflowInsideService
deriving DecidableEq, Repr

/-! ## Reset -/

/-- A channel after reset (10_state.md R38); its polarity is unspecified there and is the argument. -/
def Channel.afterReset (pol : Polarity) : Channel where
  claimed := false
  polarity := pol
  writeIndex := 0
  readIndex := 0
  rb := []

/-- A sensor after reset (10_state.md R38); its eight float registers are unspecified there and are the argument:
angles 0 to 3, position 4 to 6, distance 7. -/
def Sensor.afterReset (f : Nat → FloatWord) : Sensor where
  decode :=
    { lastRise := 0, lastFall := 0, zeroTime := 0, axis := false, lhId := .unknown,
      gotSweep := false, gotSkip := false, gotNotSkip := false }
  frame :=
    { acc := 0, nbits := 0, mode := .preamble, ob := [], rxCount := 0, length := 0, padding := false,
      complete := false }
  fix := { angle := ⟨f 0, f 1, f 2, f 3⟩, fresh := 0, pos := ⟨f 4, f 5, f 6⟩, dist := f 7 }

/-- A light source after reset (10_state.md R38); its twelve floats are unspecified there and are the argument:
the matrix in row-major order, then the origin. -/
def LightSource.afterReset (f : Nat → FloatWord) : LightSource where
  rot := ⟨⟨f 0, f 1, f 2⟩, ⟨f 3, f 4, f 5⟩, ⟨f 6, f 7, f 8⟩⟩
  origin := ⟨f 9, f 10, f 11⟩
  valid := false

/-- The state after RESET (70_reset_and_hazards.md R260, 10_state.md R38) of the instantiation `c`; what R38 leaves
unspecified is the arguments. The model's own fields are empty. -/
def State.afterReset (c : Config) (pol : Nat → Polarity) (sensorFloat sourceFloat : Nat → Nat → FloatWord) : State where
  ovfCounter := 0
  ovfBusy := false
  channels := (List.range c.nChannels).map fun ch => Channel.afterReset (pol ch)
  sensors := (List.range c.nSensors).map fun i => Sensor.afterReset (sensorFloat i)
  src0 := LightSource.afterReset (sourceFloat 0)
  src1 := LightSource.afterReset (sourceFloat 1)
  config := c
  inbox := []
  interleave := []
  inService := false
  draws := 0
  output := ⟨.nothing, []⟩

/-- The state the host starts from: the values of R38, and for what R38 leaves unspecified FALLING and zero
(DESIGN CHOICE, log 5), in the instantiation I48 (DESIGN CHOICE, log 8). -/
def State.reset : State :=
  State.afterReset Config.i48 (fun _ => .falling) (fun _ _ => 0) (fun _ _ => 0)

end Sys2Proof.Machine
end

