-- ==== Sys2Proof/Machine/Ops.lean ====
section
/-! DEFINITION. The named operations over memory and registers: banks, the angle registers, access to channels,
sensors and sources, raising a condition, returning a result, ending an interrupt service. -/

namespace Sys2Proof.Machine

/-! ## Memory (20_memory.md R60, R64, R65) -/

/-- What a bank lists at index `i`; `none` where nothing has been written (log 7). -/
def Bank.get {w : Nat} (b : Bank w) (i : Nat) : Option (BitVec w) :=
  match b with
  | [] => none
  | (j, v) :: rest => if i = j then some v else Bank.get rest i

/-- Write one cell, keeping the indices strictly rising. -/
def Bank.set {w : Nat} (b : Bank w) (i : Nat) (v : BitVec w) : Bank w :=
  match b with
  | [] => [(i, v)]
  | (j, u) :: rest =>
    if i < j then (i, v) :: (j, u) :: rest
    else if i = j then (i, v) :: rest
    else (j, u) :: Bank.set rest i v

/-! ## Indices modulo 2^IDX_W (30_encoding.md R104) -/

/-- `a +_IDX_W b`. -/
def idxAdd (w a b : Nat) : Nat := (a + b) % 2 ^ w

/-- `a −_IDX_W b`. -/
def idxSub (w a b : Nat) : Nat := (a + (2 ^ w - b % 2 ^ w)) % 2 ^ w

/-- The ring-buffer slot of a free-running index (30_encoding.md R86). -/
def slotOf (i : Nat) : Nat := i % 64

/-! ## The angle registers (10_state.md R33) -/

/-- Write slot `i`; there are four slots and no other index reaches this operation (43_position_solver.md R202). -/
def angleSet (a : Angles FloatWord) (i : Nat) (v : FloatWord) : Angles FloatWord :=
  match i with
  | 0 => { a with slot0 := v }
  | 1 => { a with slot1 := v }
  | 2 => { a with slot2 := v }
  | 3 => { a with slot3 := v }
  | _ => a

/-! ## Channels, sensors, sources -/

/-- Replace channel `ch`. -/
def State.setChannel (s : State) (ch : Nat) (c : Channel) : State :=
  { s with channels := s.channels.set ch c }

/-- The registers of sensor `i`. Every operation checks the index first (30_encoding.md R102), so the answer for an
index out of range is never used. -/
def State.sensor (s : State) (i : Nat) : Sensor :=
  s.sensors.getD i (Sensor.afterReset fun _ => 0)

/-- Replace the registers of sensor `i`. -/
def State.setSensor (s : State) (i : Nat) (sn : Sensor) : State :=
  { s with sensors := s.sensors.set i sn }

/-- Replace the decode state of sensor `i`. -/
def State.setDecode (s : State) (i : Nat) (d : DecodeState) : State :=
  s.setSensor i { s.sensor i with decode := d }

/-- Replace the OOTX frame state of sensor `i`. -/
def State.setFrame (s : State) (i : Nat) (f : FrameState) : State :=
  s.setSensor i { s.sensor i with frame := f }

/-- Replace the SensorFix of sensor `i`. -/
def State.setFix (s : State) (i : Nat) (f : SensorFix) : State :=
  s.setSensor i { s.sensor i with fix := f }

/-- Replace light source `k`. -/
def State.setSource (s : State) (k : BitVec 1) (l : LightSource) : State :=
  if k = 0 then { s with src0 := l } else { s with src1 := l }

/-- The mask `claimed` (10_state.md R23), bit `ch` for channel `ch`. -/
def State.claimedMask (s : State) : Nat :=
  s.channels.foldr (fun c m => 2 * m + c.claimed.toNat) 0

/-! ## Results and conditions (00_scope.md R13, 60_exceptions.md R230, R238) -/

/-- The output as an operation finds it: no result and no condition yet. -/
def State.clearOutput (s : State) : State := { s with output := ⟨.nothing, []⟩ }

/-- `raise X(info)`: the operation's result is marked with the condition and nothing else happens
(60_exceptions.md R230). This is the whole of taking an exception on this hardware: no register is saved and no
control is transferred (R238). -/
def State.raise (s : State) (c : Condition) : State :=
  { s with output := { s.output with conditions := s.output.conditions ++ [c] } }

/-- `return`: the operation's result. -/
def State.returns (s : State) (r : Result) : State := { s with output := { s.output with result := r } }

/-- End of an interrupt service (40_edge_capture_buffer.md R116): the only return-like event; it restores nothing,
because a service saves nothing (60_exceptions.md R239). -/
def State.endService (s : State) : State := { s with ovfBusy := false, inService := false }

end Sys2Proof.Machine
end

