-- ==== Sys2Proof/Machine/Operands.lean ====
section
/-! DEFINITION. The operand forms of the operations (30_encoding.md R100 to R102): which agent may issue them and
which indices exist; and the numbers the spec gives its enumerations. -/

namespace Sys2Proof.Machine

/-- What an operation answers. -/
abbrev Answer := Host.Outcome State Fault Refusal

/-- An operation of agent POLL: no meaning inside an interrupt service (70_reset_and_hazards.md R265, U15). -/
def asPoll (s : State) (body : State → Answer) : Answer :=
  if s.inService then .refused .pollInsideService else body s.clearOutput

/-- An operation on a channel: `ch < N_CHANNELS` (30_encoding.md R102). -/
def onChannel (s : State) (ch : Nat) (body : Channel → Answer) : Answer :=
  match s.channels[ch]? with
  | some c => body c
  | none => .refused .channelOutOfRange

/-- An operation on a logical pin: `pin < N_PINS`, and the channel it maps to (40_edge_capture_buffer.md R111). -/
def onPin (s : State) (pin : Nat) (body : Nat → Channel → Answer) : Answer :=
  match s.config.pinToChannel[pin]? with
  | some ch => onChannel s ch (body ch)
  | none => .refused (.pinOutOfRange pin)

/-- An operation on a sensor: `s < N_SENSORS` (30_encoding.md R102). -/
def onSensor (s : State) (i : Nat) (body : Answer) : Answer :=
  if i < s.sensors.length then body else .refused (.sensorOutOfRange i)

/-! ## Numbers of the enumerations (30_encoding.md R83 to R85, R90, R92; 60_exceptions.md R230) -/

/-- NoData = 0, Sample = 1, SampleWithLoss = 2. -/
def ReadResult.status : ReadResult → BitVec 2
  | .noData => 0
  | .sample _ => 1
  | .sampleWithLoss _ => 2

/-- The timestamp of a read that delivered one. -/
def ReadResult.timestamp? : ReadResult → Option Timestamp
  | .noData => none
  | .sample ts => some ts
  | .sampleWithLoss ts => some ts

/-- Whether the read reports loss. -/
def ReadResult.lost : ReadResult → Bool
  | .sampleWithLoss _ => true
  | _ => false

/-- FALLING = 0, RISING = 1. -/
def polarityCode : Polarity → BitVec 1
  | .falling => 0
  | .rising => 1

/-- 0, 1, UNKNOWN = 2. -/
def LhId.code : LhId → BitVec 2
  | .zero => 0
  | .one => 1
  | .unknown => 2

/-- NONE = 0, SWEEP_VALID = 1, SWEEP_INVALID = 2, GUARD = 3, SYNC = 4, UNMATCHED = 5. -/
def recordKind : Option PulseRecord → BitVec 3
  | none => 0
  | some (.sweepValid _ _ _ _) => 1
  | some (.sweepInvalid _) => 2
  | some (.guard _) => 3
  | some (.sync _ _ _) => 4
  | some (.unmatched _) => 5

/-- SampleLoss 1, ProtocolResync 2, LengthOverflow 3, GeometryFailure 4, ConfigurationConflict 5. -/
def Condition.code : Condition → Nat
  | .sampleLoss _ => 1
  | .protocolResync _ => 2
  | .lengthOverflow _ => 3
  | .geometryFailure _ => 4
  | .configurationConflict _ => 5

end Sys2Proof.Machine
end

