-- ==== Sys2Proof/Machine/Flags.lean ====
section
/-! DEFINITION. The tests and flag computations of the operations, each written once. The hardware has no arithmetic
condition codes (10_state.md R34). -/

namespace Sys2Proof.Machine

/-- `reconstruct_hi(low)` (40_edge_capture_buffer.md R114; `≥` by 90_conflicts.md C1). -/
def reconstructHi (highWater : Nat) (busy : Bool) (counter low : BitVec 16) : BitVec 16 :=
  if highWater ≤ low.toNat ∧ busy = true then counter - 1 else counter

/-- `hi ‖ lo` (30_encoding.md R81). -/
def timestampOf (hi low : BitVec 16) : Timestamp := hi ++ low

/-- The unread count `write_index −_IDX_W read_index` (10_state.md R26). -/
def Channel.gap (w : Nat) (c : Channel) : Nat := idxSub w c.writeIndex c.readIndex

/-- The index ECB.READ fast-forwards to after a loss: `write_index − 64 + 1` (40_edge_capture_buffer.md R121). -/
def Channel.recovered (w : Nat) (c : Channel) : Nat := idxAdd w (idxSub w c.writeIndex 64) 1

/-- `length < T_SHORT` (41_pulse_classifier.md R142). -/
def isSweep (c : Config) (length : Timestamp) : Bool := decide (length.toNat < c.tShort)

/-- The stale-cycle test `duty > T_GAP or got_sweep = 1` (41_pulse_classifier.md R142, R146). -/
def isStale (c : Config) (duty : Timestamp) (d : DecodeState) : Bool :=
  decide (c.tGap < duty.toNat) || d.gotSweep

/-- The midpoint of a pulse, `rise −_32 (length div 2)` (41_pulse_classifier.md R144). -/
def pulseMidpoint (rise length : Timestamp) : Timestamp := rise - length / 2

/-- Sweep validity (41_pulse_classifier.md R144). -/
def sweepValid (c : Config) (delta : Timestamp) (d : DecodeState) : Bool :=
  !d.gotSweep && d.lhId != .unknown && decide (delta.toNat ≤ c.tWindow)

/-- `lh_id × 2 + axis` (30_encoding.md R91); the sentinel never reaches it. -/
def slotIndex (d : DecodeState) : Nat :=
  (match d.lhId with | .zero => 0 | .one => 2 | .unknown => 0) + d.axis.toNat

/-- A sync window holds a length: both ends inclusive, as exact integers (30_encoding.md R89). -/
def inWindow (tol : Nat) (code : SyncCode) (length : Nat) : Bool :=
  decide (code.center ≤ length + tol ∧ length ≤ code.center + tol)

/-- `sync_match(length)` followed by the table's triple (30_encoding.md R89, R87). -/
def syncMatch (c : Config) (length : Timestamp) : Option SyncBits :=
  (c.sync.find? fun code => inWindow c.syncTol code length.toNat).map (·.bits)

/-- `pad = total mod 2` (42_ootx_decoder.md R176). -/
def framePad (word : BitVec 16) : Nat := (word.toNat + 4) % 2

/-- `total + pad` (42_ootx_decoder.md R176, 30_encoding.md R96). -/
def frameTotal (word : BitVec 16) : Nat := word.toNat + 4 + framePad word

/-- The freshness mask with the bit of a slot set (43_position_solver.md R202). -/
def markFresh (fresh : BitVec 4) (slot : Nat) : BitVec 4 := fresh ||| (1#4 <<< slot)

/-- All four slots are fresh (30_encoding.md R91). -/
def allFresh (fresh : BitVec 4) : Bool := fresh == 0b1111#4

end Sys2Proof.Machine
end

