-- ==== Sys2Proof/Machine/Capture.lean ====
section
/-! DEFINITION. The EdgeCaptureBuffer operations (40_edge_capture_buffer.md): ECB.BEGIN, ECB.TOV, ECB.CAP, ECB.IRET,
ECB.READ. -/

namespace Sys2Proof.Machine

/-! ## Producer -/

/-- Append a timestamp to a channel (R113, R115): an unclaimed channel ignores it; a full buffer is overwritten
silently. -/
def Channel.append (w : Nat) (ts : Timestamp) (c : Channel) : Channel :=
  if c.claimed then
    { c with rb := c.rb.set (slotOf c.writeIndex) ts, writeIndex := idxAdd w c.writeIndex 1 }
  else c

/-- ECB.TOV (R112): count the wrap, set the flag; it opens the service. -/
def State.overflow (s : State) : State :=
  { s with ovfCounter := s.ovfCounter + 1, ovfBusy := true, inService := true }

/-- The timestamp of an edge captured now (R113, R114). -/
def State.stamp (s : State) (low : BitVec 16) : Timestamp :=
  timestampOf (reconstructHi s.config.highWater s.ovfBusy s.ovfCounter low) low

/-- ECB.CAP on channel `ch`, whose registers are `c` (R113); a service is open from here on. -/
def State.capture (s : State) (ch : Nat) (c : Channel) (low : BitVec 16) : State :=
  { s.setChannel ch (c.append s.config.idxW (s.stamp low)) with inService := true }

/-! ## Consumer -/

/-- What ECB.READ does to a channel (R120, R121): the index it delivers, whether it lost samples, and the channel
after; `none` is NoData. -/
def Channel.consume (w : Nat) (c : Channel) : Option (Nat × Bool × Channel) :=
  if c.writeIndex = c.readIndex then none
  else
    let loss := decide (64 < c.gap w)
    let r := if loss then c.recovered w else c.readIndex
    some (r, loss, { c with readIndex := idxAdd w r 1 })

/-- ECB.READ of channel `ch`, whose registers are `c` (R120): the result and the state after. A slot that nothing has
written, which no state reached from reset reads (10_state.md R26, R38), delivers a free value (log 7). -/
def State.readChannel (s : State) (ch : Nat) (c : Channel) : ReadResult × State :=
  match c.consume s.config.idxW with
  | none => (.noData, s)
  | some (r, loss, c') =>
    let slot := c.rb.get (slotOf r)
    let ts := slot.getD (Config.anyTimestamp s.draws)
    let t := s.setChannel ch c'
    let t := if slot.isSome then t else { t with draws := s.draws + 1 }
    if loss then (.sampleWithLoss ts, t.raise (.sampleLoss ch)) else (.sample ts, t)

/-! ## Whole services at an interleave point (20_memory.md R69, R70) -/

/-- The captures of a service in order; `none` if one names a channel that does not exist. -/
def State.runCaptures (s : State) : List (Nat × BitVec 16) → Option State
  | [] => some s
  | (ch, low) :: rest =>
    match s.channels[ch]? with
    | some c => State.runCaptures (s.capture ch c low) rest
    | none => none

/-- One whole service: optionally ECB.TOV, then the ECB.CAPs, then ECB.IRET. -/
def State.runService (s : State) (v : Service) : Option State :=
  ((if v.overflow then s.overflow else s).runCaptures v.captures).map State.endService

/-- Services one after another. -/
def State.runServices (s : State) : List Service → Option State
  | [] => some s
  | v :: rest => (s.runService v).bind fun t => t.runServices rest

/-! ## The operations -/

/-- ECB.BEGIN (R110): claim the channel a pin maps to. -/
def execEcbBegin (pin : Nat) (pol : Polarity) (s : State) : Answer :=
  asPoll s fun s => onPin s pin fun ch c =>
    if c.claimed then
      .next ((s.raise (.configurationConflict ch)).returns (.begun false))
    else
      .next ((s.setChannel ch
        { c with claimed := true, polarity := pol, writeIndex := 0, readIndex := 0 }).returns (.begun true))

/-- ECB.TOV (R112): at most one per service, and before its captures (20_memory.md R69). -/
def execEcbTov (s : State) : Answer :=
  if s.inService then .refused .overflowInsideService else .next s.clearOutput.overflow

/-- ECB.CAP (R113). -/
def execEcbCap (ch : Nat) (low : BitVec 16) (s : State) : Answer :=
  onChannel s ch fun c => .next (s.clearOutput.capture ch c low)

/-- ECB.IRET (R116). -/
def execEcbIret (s : State) : Answer := .next s.clearOutput.endService

/-- ECB.READ (R120). -/
def execEcbRead (ch : Nat) (s : State) : Answer :=
  asPoll s fun s => onChannel s ch fun c =>
    .next (let (r, t) := s.readChannel ch c; t.returns (.read r))

end Sys2Proof.Machine
end

