-- ==== Sys2Proof/Machine/Ootx.lean ====
section
/-! DEFINITION. The OOTXDecoder operations (42_ootx_decoder.md): OOTX.ADD, OOTX.RST, OOTX.ACK. The steps are functions
of one frame state; the conditions they raise carry the sensor `i`. -/

namespace Sys2Proof.Machine

/-- Reset to preamble hunting (R171): the mode and the shift register, nothing else. -/
def FrameState.rearm (f : FrameState) : FrameState := { f with mode := .preamble, acc := 0, nbits := 0 }

/-- Shift one bit in at the low end, 18 bits kept (R173, R175; 30_encoding.md R104). -/
def FrameState.shift (f : FrameState) (bit : Bool) : FrameState :=
  { f with acc := f.acc <<< 1 ||| (BitVec.ofBool bit).setWidth 18, nbits := f.nbits + 1 }

/-- Preamble step (R173): a rolling match over 18-bit windows. -/
def FrameState.preambleStep (f : FrameState) (bit : Bool) : FrameState :=
  let g := f.shift bit
  if g.nbits = 18 then
    if g.acc = 0x00001 then { g with mode := .length, acc := 0, nbits := 0 }
    else { g with acc := g.acc &&& 0x1FFFF, nbits := 17 }
  else g

/-- Length-word step (R176, R177). -/
def FrameState.lengthWord (i : Nat) (f : FrameState) (word : BitVec 16) : FrameState × List Condition :=
  if 256 < frameTotal word then (f.rearm, [.lengthOverflow i])
  else
    ({ f with length := frameTotal word, padding := framePad word == 1, rxCount := 0, mode := .data }, [])

/-- Store the two bytes of a data word, high byte first, and count them (R179). -/
def FrameState.storeWord (f : FrameState) (word : BitVec 16) : FrameState :=
  { f with
    ob := (f.ob.set f.rxCount (word.extractLsb' 8 8)).set (f.rxCount + 1) (word.extractLsb' 0 8)
    rxCount := f.rxCount + 2 }

/-- Data-word step with completion (R179, R180). -/
def FrameState.dataWord (f : FrameState) (word : BitVec 16) : FrameState :=
  let g := f.storeWord word
  if g.length ≤ g.rxCount then { g.rearm with complete := true } else g

/-- Word step (R175, R178): 17 bits per word, the last received is the sync bit. A last bit of 0 raises ProtocolResync
for every caller: also for a bit that PCL.PULSE forwards, of which 60_exceptions.md R237 says that it cannot.
DESIGN CHOICE between the two, log 23. -/
def FrameState.wordStep (i : Nat) (f : FrameState) (bit : Bool) : FrameState × List Condition :=
  let g := f.shift bit
  if g.nbits < 17 then (g, [])
  else
    let sync := g.acc.getLsbD 0
    let word := g.acc.extractLsb' 1 16
    let h := { g with acc := 0, nbits := 0 }
    if sync = false then (h.rearm, [.protocolResync i])
    else if g.mode = .length then h.lengthWord i word
    else (h.dataWord word, [])

/-- OOTX.ADD on one decoder (R170, R172): the state after and the conditions raised. -/
def FrameState.add (i : Nat) (f : FrameState) (bit : BitVec 32) : FrameState × List Condition :=
  if 1 < bit.toNat then (f.rearm, [.protocolResync i])
  else if f.mode = .preamble then (f.preambleStep (bit.getLsbD 0), [])
  else f.wordStep i (bit.getLsbD 0)

/-- OOTX.ADD on sensor `i`. -/
def State.ootxAdd (s : State) (i : Nat) (bit : BitVec 32) : State :=
  let r := (s.sensor i).frame.add i bit
  r.2.foldl State.raise (s.setFrame i r.1)

/-! ## The operations -/

/-- OOTX.ADD (R170). It returns nothing. -/
def execOotxAdd (i : Nat) (bit : BitVec 32) (s : State) : Answer :=
  asPoll s fun s => onSensor s i (.next (s.ootxAdd i bit))

/-- OOTX.ACK (R182): only `complete[s]` is cleared. -/
def execOotxAck (i : Nat) (s : State) : Answer :=
  asPoll s fun s => onSensor s i (.next (s.setFrame i { (s.sensor i).frame with complete := false }))

/-- OOTX.RST (R171). -/
def execOotxRst (i : Nat) (s : State) : Answer :=
  asPoll s fun s => onSensor s i (.next (s.setFrame i (s.sensor i).frame.rearm))

end Sys2Proof.Machine
end

