-- ==== Sys2Proof/Machine/Numerics.lean ====
section
/-! DEFINITION. The parameter NUMERICS (00_scope.md R9, 30_encoding.md R99): the float operations of the rules as one
record, so that each formula is written once for every numerics; its nominal instantiation, IEEE 754 binary32 with
round to nearest even; the uninterpreted ones; and exact rational arithmetic, the instantiation over the rationals
that the head of 43_position_solver.md calls legitimate. -/

namespace Sys2Proof.Machine

/-- The float operations of 41_pulse_classifier.md R154 and 43_position_solver.md R203 to R209 over numbers `α`.
`none`: the result is no finite number (43_position_solver.md R213). -/
structure Arith (α : Type) where
  zero : α
  pi : α
  ofNat : Nat → Option α
  neg : α → α
  add : α → α → Option α
  sub : α → α → Option α
  mul : α → α → Option α
  div : α → α → Option α
  sqrt : α → Option α
  sin : α → Option α
  cos : α → Option α
  lt : α → α → Bool
  finite : α → Bool

/-! ## Exact rationals, with abstract `sqrt`, `sin`, `cos` and `pi` -/

/-- Arithmetic over the rationals; a division by zero has no finite result. -/
def exactArith (pi : Rat) (sqrt sin cos : Rat → Option Rat) : Arith Rat where
  zero := 0
  pi := pi
  ofNat := fun n => some n
  neg := fun x => -x
  add := fun x y => some (x + y)
  sub := fun x y => some (x - y)
  mul := fun x y => some (x * y)
  div := fun x y => if y = 0 then none else some (x / y)
  sqrt := sqrt
  sin := sin
  cos := cos
  lt := fun x y => decide (x < y)
  finite := fun _ => true

/-! ## IEEE 754 binary32 (PRESUMED by the spec from general knowledge, 00_scope.md R9; log 12) -/

/-- The sign bit of a binary32 word. -/
def b32Sign (w : FloatWord) : Bool := w.toNat.testBit 31

/-- The exact value of a binary32 word, `± m × 2^e / 2^150`; `none` for an infinity, a NaN or a word that is wider
than 32 bits. -/
def b32Value (w : FloatWord) : Option Rat :=
  let n := w.toNat
  let field := n / 2 ^ 23 % 256
  let m := if field = 0 then n % 2 ^ 23 else n % 2 ^ 23 + 2 ^ 23
  let scaled : Nat := m * 2 ^ (if field = 0 then 1 else field)
  if n < 2 ^ 32 ∧ field ≠ 255 then
    some (mkRat (if b32Sign w then -(scaled : Int) else scaled) (2 ^ 150))
  else none

/-- Nearest integer to `n / d`, ties to even. -/
def roundHalfEven (n d : Nat) : Nat :=
  let q := n / d
  let r := n % d
  if 2 * r < d then q else if d < 2 * r then q + 1 else q + q % 2

/-- A rational rounded to binary32, to nearest with ties to even; `zeroSign` is the sign of an exact zero; `none` on
overflow. The exponent field `e` is the one at which the significand has 24 bits, at least 1 (subnormal numbers). -/
def b32Round (zeroSign : Bool) (q : Rat) : Option FloatWord :=
  let n := q.num.natAbs
  if n = 0 then some (if zeroSign then 0x80000000 else 0)
  else
    let e := max 1 (Nat.log2 (n * 2 ^ 150 / q.den) - 23)
    let m := roundHalfEven (n * 2 ^ 150) (q.den * 2 ^ e)
    let bits := (e - 1) * 2 ^ 23 + m
    if 255 * 2 ^ 23 ≤ bits then none
    else some (BitVec.ofNat 64 (bits + (if q.num < 0 then 2 ^ 31 else 0)))

/-- Negation: the sign bit flips. -/
def b32Neg (x : FloatWord) : FloatWord := x ^^^ 0x80000000

/-- Correctly rounded sum; an exact zero is −0 only when both operands are negative. -/
def b32Add (x y : FloatWord) : Option FloatWord := do
  let a ← b32Value x
  let b ← b32Value y
  b32Round (b32Sign x && b32Sign y) (a + b)

/-- Correctly rounded product. -/
def b32Mul (x y : FloatWord) : Option FloatWord := do
  let a ← b32Value x
  let b ← b32Value y
  b32Round (b32Sign x != b32Sign y) (a * b)

/-- Correctly rounded quotient. -/
def b32Div (x y : FloatWord) : Option FloatWord := do
  let a ← b32Value x
  let b ← b32Value y
  if b = 0 then none else b32Round (b32Sign x != b32Sign y) (a / b)

/-- Integer square root, bit by bit from bit `i - 1` down, starting from the root `r` found so far. -/
def isqrtFrom (n : Nat) : Nat → Nat → Nat
  | 0, r => r
  | i + 1, r => isqrtFrom n i (if (r + 2 ^ i) * (r + 2 ^ i) ≤ n then r + 2 ^ i else r)

/-- Correctly rounded square root: 64 bits of the root with a sticky bit below them, rounded once. A negative number
has no finite root. -/
def b32Sqrt (x : FloatWord) : Option FloatWord := do
  let a ← b32Value x
  if a < 0 then none
  else if a = 0 then some x
  else
    let n := a.num.natAbs * a.den * 2 ^ 128
    let r := isqrtFrom n (Nat.log2 n / 2 + 1) 0
    b32Round false (mkRat (2 * r + (if r * r = n then 0 else 1)) (a.den * 2 ^ 65))

/-- `2^256`, the scale of the fixed-point numbers below. -/
def fixOne : Int := 2 ^ 256

/-- Pi in fixed point. -/
def fixPi : Int :=
  363771576891766324280234942777729862653393377328392429958772151117938894466185

/-- A number in fixed point, reduced by whole turns to the half-open interval from −pi to pi. -/
def fixReduce (a : Rat) : Int :=
  (a.num * fixOne / a.den + fixPi) % (2 * fixPi) - fixPi

/-- The alternating series with first term `t` of degree `k`: each term is the one before times
`−x² / ((k + 1)(k + 2))`. -/
def taylor (x2 : Int) : Nat → Nat → Int → Int
  | 0, _, _ => 0
  | n + 1, k, t => t + taylor x2 n (k + 2) (-(t * x2 / fixOne) / ((k + 1) * (k + 2)))

/-- Sine: forty terms of the series, rounded once. DESIGN CHOICE, log 12. -/
def b32Sin (x : FloatWord) : Option FloatWord := do
  let a ← b32Value x
  if a = 0 then some x
  else
    let r := fixReduce a
    b32Round false (mkRat (taylor (r * r / fixOne) 40 1 r) (2 ^ 256))

/-- Cosine: forty terms of the series, rounded once. DESIGN CHOICE, log 12. -/
def b32Cos (x : FloatWord) : Option FloatWord := do
  let a ← b32Value x
  let r := fixReduce a
  b32Round false (mkRat (taylor (r * r / fixOne) 40 0 fixOne) (2 ^ 256))

/-- Comparison of finite numbers. -/
def b32Lt (x y : FloatWord) : Bool :=
  match b32Value x, b32Value y with
  | some a, some b => decide (a < b)
  | _, _ => false

/-- The nominal numerics. `pi` is the binary32 number nearest pi. -/
def binary32 : Arith FloatWord where
  zero := 0
  pi := 0x40490FDB
  ofNat := fun n => b32Round false n
  neg := b32Neg
  add := b32Add
  sub := fun x y => b32Add x (b32Neg y)
  mul := b32Mul
  div := b32Div
  sqrt := b32Sqrt
  sin := b32Sin
  cos := b32Cos
  lt := b32Lt
  finite := fun x => (b32Value x).isSome

/-! ## Any other numerics (log 12) -/

/-- The uninterpreted numerics `id`. -/
def platformArith (id : Nat) : Arith FloatWord where
  zero := Config.platformZero id
  pi := Config.platformPi id
  ofNat := Config.platformOfNat id
  neg := Config.platformNeg id
  add := Config.platformOp id .add
  sub := Config.platformOp id .sub
  mul := Config.platformOp id .mul
  div := Config.platformOp id .div
  sqrt := Config.platformFn id .sqrt
  sin := Config.platformFn id .sin
  cos := Config.platformFn id .cos
  lt := Config.platformLt id
  finite := Config.platformFinite id

/-- The numerics a configuration names. -/
def arithOf : Numerics → Arith FloatWord
  | .binary32 => binary32
  | .platform id => platformArith id

end Sys2Proof.Machine
end

