-- ==== Sys2Proof/Machine/Solver.lean ====
section
/-! DEFINITION. The PositionSolver operations (43_position_solver.md): SOL.SETSRC, SOL.UPDATE, SOL.COMPUTE. -/

namespace Sys2Proof.Machine

section Geometry

/-! ## Geometry (R204 to R209), over any numerics. Sums are taken from left to right and each operation is rounded on
its own (log 12). `none`: some intermediate value is not finite (R213). -/

variable {α : Type} (A : Arith α)

/-- `u · v` (R206). -/
def dot (u v : Vec3 α) : Option α := do
  let x ← A.mul u.x v.x
  let y ← A.mul u.y v.y
  let z ← A.mul u.z v.z
  let xy ← A.add x y
  A.add xy z

/-- `a b − c d`. -/
def mulSub (a b c d : α) : Option α := do
  let p ← A.mul a b
  let q ← A.mul c d
  A.sub p q

/-- `u × v` (R204). -/
def cross (u v : Vec3 α) : Option (Vec3 α) := do
  let x ← mulSub A u.y v.z u.z v.y
  let y ← mulSub A u.z v.x u.x v.z
  let z ← mulSub A u.x v.y u.y v.x
  some ⟨x, y, z⟩

/-- `u − v`. -/
def vecSub (u v : Vec3 α) : Option (Vec3 α) := do
  let x ← A.sub u.x v.x
  let y ← A.sub u.y v.y
  let z ← A.sub u.z v.z
  some ⟨x, y, z⟩

/-- `u + v`. -/
def vecAdd (u v : Vec3 α) : Option (Vec3 α) := do
  let x ← A.add u.x v.x
  let y ← A.add u.y v.y
  let z ← A.add u.z v.z
  some ⟨x, y, z⟩

/-- `t u`. -/
def vecScale (t : α) (u : Vec3 α) : Option (Vec3 α) := do
  let x ← A.mul t u.x
  let y ← A.mul t u.y
  let z ← A.mul t u.z
  some ⟨x, y, z⟩

/-- `u / t`. -/
def vecDiv (u : Vec3 α) (t : α) : Option (Vec3 α) := do
  let x ← A.div u.x t
  let y ← A.div u.y t
  let z ← A.div u.z t
  some ⟨x, y, z⟩

/-- A vector without a component along one axis (R204): its other two, in the order of the axes. -/
def inPlane (axis : Axis) (u v : α) : Vec3 α :=
  match axis with
  | .x => ⟨A.zero, u, v⟩
  | .y => ⟨u, A.zero, v⟩
  | .z => ⟨u, v, A.zero⟩

/-- The ray where two planes with normals `n` and `m` meet (R204): `n × m`, divided by its length. This much of
`ray_local` no instantiation changes. -/
def rayOfNormals (n m : Vec3 α) : Option (Vec3 α) := do
  let c ← cross A n m
  let cc ← dot A c c
  let norm ← A.sqrt cc
  vecDiv A c norm

/-- The default `ray_local` (R204): the normals `n1` in the X–Z plane, `n2` in the Y–Z plane, and `n2 × n1`. PRESUMED by
the spec from general knowledge, log 13. -/
def planeNormalRay (θ1 θ2 : α) : Option (Vec3 α) := do
  let s1 ← A.sin θ1
  let c1 ← A.cos θ1
  let s2 ← A.sin θ2
  let c2 ← A.cos θ2
  rayOfNormals A (inPlane A .x c2 s2) (inPlane A .y c1 (A.neg s1))

/-- Rotation to world space, matrix times column vector (R205). -/
def rotate (m : Mat3 α) (r : Vec3 α) : Option (Vec3 α) := do
  let x ← dot A m.row0 r
  let y ← dot A m.row1 r
  let z ← dot A m.row2 r
  some ⟨x, y, z⟩

/-- The closest points of two lines (R206), `none` when the system is near-singular (R207): the test
`denom < SOLVE_EPS` comes before either division. -/
def closestApproach (eps : α) (p0 d0 p1 d1 : Vec3 α) : Option (Option (Vec3 α × Vec3 α)) := do
  let w ← vecSub A p0 p1
  let a ← dot A d0 d0
  let b ← dot A d0 d1
  let c ← dot A d1 d1
  let d ← dot A d0 w
  let e ← dot A d1 w
  let denom ← mulSub A a c b b
  if A.lt denom eps then some none
  else
    let n0 ← mulSub A b e c d
    let t0 ← A.div n0 denom
    let n1 ← mulSub A a e b d
    let t1 ← A.div n1 denom
    let step0 ← vecScale A t0 d0
    let q0 ← vecAdd A p0 step0
    let step1 ← vecScale A t1 d1
    let q1 ← vecAdd A p1 step1
    some (some (q0, q1))

/-- The reported position, midpoint of the closest points (R209). -/
def midpointOf (q0 q1 : Vec3 α) : Option (Vec3 α) := do
  let two ← A.ofNat 2
  let sum ← vecAdd A q0 q1
  vecDiv A sum two

/-- The reported distance, separation of the closest points (R209). -/
def separation (q0 q1 : Vec3 α) : Option α := do
  let diff ← vecSub A q1 q0
  let sq ← dot A diff diff
  A.sqrt sq

/-- Position and distance from two world lines, `none` when near-singular (R206 to R209). -/
def intersect (eps : α) (p0 d0 p1 d1 : Vec3 α) : Option (Option (Vec3 α × α)) := do
  match ← closestApproach A eps p0 d0 p1 d1 with
  | none => some none
  | some (q0, q1) =>
    let pos ← midpointOf A q0 q1
    let dist ← separation A q0 q1
    some (some (pos, dist))

/-- Every component is a finite number. -/
def vecFinite (v : Vec3 α) : Bool := A.finite v.x && A.finite v.y && A.finite v.z

end Geometry

/-! ## One solve -/

/-- The parameter `ray_local` of a configuration (R204); the normals of any other construction are uninterpreted (log 13). -/
def localRay (c : Config) (θ1 θ2 : FloatWord) : Option (Vec3 FloatWord) :=
  match c.rayLocal with
  | .planeNormals => planeNormalRay (arithOf c.numerics) θ1 θ2
  | .platform id axis1 axis2 firstTimesSecond => do
    let A := arithOf c.numerics
    let p ← Config.platformNormal id 1 θ1
    let q ← Config.platformNormal id 2 θ2
    let n1 := inPlane A axis1 p.1 p.2
    let n2 := inPlane A axis2 q.1 q.2
    if firstTimesSecond then rayOfNormals A n1 n2 else rayOfNormals A n2 n1

/-- The world direction of one source from its two angles (R204, R205). -/
def worldRay (c : Config) (l : LightSource) (θ1 θ2 : FloatWord) : Option (Vec3 FloatWord) := do
  let r ← localRay c θ1 θ2
  rotate (arithOf c.numerics) l.rot r

/-- The record of a source holds finite numbers only (R213). -/
def sourceFinite (A : Arith FloatWord) (l : LightSource) : Bool :=
  vecFinite A l.rot.row0 && vecFinite A l.rot.row1 && vecFinite A l.rot.row2 && vecFinite A l.origin

/-- The four angles are finite numbers (R213). -/
def anglesFinite (A : Arith FloatWord) (a : Angles FloatWord) : Bool :=
  A.finite a.slot0 && A.finite a.slot1 && A.finite a.slot2 && A.finite a.slot3

/-- The triangulation of R203 with both records supplied: source `k` uses slots `2k` and `2k + 1`. `none`: some value
is not finite (R213); `some none`: near-singular (R207). -/
def triangulate (c : Config) (l0 l1 : LightSource) (a : Angles FloatWord) : Option (Option (Vec3 FloatWord × FloatWord)) :=
  let A := arithOf c.numerics
  if sourceFinite A l0 && sourceFinite A l1 && anglesFinite A a then do
    let d0 ← worldRay c l0 a.slot0 a.slot1
    let d1 ← worldRay c l1 a.slot2 a.slot3
    intersect A c.solveEps l0.origin d0 l1.origin d1
  else none

/-- The three ways a solve ends. -/
inductive Solve where
  /-- GeometryFailure: nothing is written (R203, R208). -/
  | failed
  /-- Success with a position and a distance (R209). -/
  | solved (pos : Vec3 FloatWord) (dist : FloatWord)
  /-- A value is not finite: verdict, position and distance are unspecified (R213; log 15). -/
  | unspecified
deriving DecidableEq, Repr

/-- A solve as a function of the records and the four angles only (R203, R211). -/
def solve (c : Config) (l0 l1 : LightSource) (a : Angles FloatWord) : Solve :=
  if l0.valid && l1.valid then
    match triangulate c l0 l1 a with
    | none => .unspecified
    | some none => .failed
    | some (some (pos, dist)) => .solved pos dist
  else .failed

/-- SOL.COMPUTE on sensor `i`: the verdict and the state after (R203, R208, R209, R213). -/
def State.compute (s : State) (i : Nat) : Bool × State :=
  let fix := (s.sensor i).fix
  match solve s.config s.src0 s.src1 fix.angle with
  | .failed => (false, s.raise (.geometryFailure i))
  | .solved pos dist => (true, s.setFix i { fix with pos := pos, dist := dist })
  | .unspecified =>
    let verdict := Config.anyVerdict s.draws
    let t := { s.setFix i { fix with pos := Config.anyPosition s.draws, dist := Config.anyDistance s.draws } with
      draws := s.draws + 1 }
    (verdict, if verdict then t else t.raise (.geometryFailure i))

/-- Clear the freshness mask of sensor `i` (R202). -/
def State.clearFresh (s : State) (i : Nat) : State :=
  s.setFix i { (s.sensor i).fix with fresh := 0 }

/-- Store an angle and mark its slot fresh (R202). -/
def State.storeAngle (s : State) (i slot : Nat) (angle : FloatWord) : State :=
  let fix := (s.sensor i).fix
  s.setFix i { fix with angle := angleSet fix.angle slot angle, fresh := markFresh fix.fresh slot }

/-- SOL.UPDATE on sensor `i`: whether a new position is available, and the state after (R202). -/
def State.update (s : State) (i slot : Nat) (angle : FloatWord) : Bool × State :=
  if 4 ≤ slot then (false, s)
  else
    let t := s.storeAngle i slot angle
    if allFresh (t.sensor i).fix.fresh then
      let (ok, u) := t.compute i
      (ok, u.clearFresh i)
    else (false, t)

/-! ## The operations -/

/-- SOL.SETSRC (R201): the record of source `k` is supplied; nothing is checked. -/
def execSolSetsrc (k : BitVec 1) (rot : Mat3 FloatWord) (origin : Vec3 FloatWord) (s : State) : Answer :=
  asPoll s fun s => .next (s.setSource k ⟨rot, origin, true⟩)

/-- SOL.UPDATE (R202). -/
def execSolUpdate (i : Nat) (slot : BitVec 8) (angle : FloatWord) (s : State) : Answer :=
  asPoll s fun s => onSensor s i (.next (let (ok, t) := s.update i slot.toNat angle; t.returns (.updated ok)))

/-- SOL.COMPUTE (R203). -/
def execSolCompute (i : Nat) (s : State) : Answer :=
  asPoll s fun s => onSensor s i (.next (let (ok, t) := s.compute i; t.returns (.computed ok)))

end Sys2Proof.Machine
end

