-- ==== Sys2Proof/Machine/Classifier.lean ====
section
/-! DEFINITION. The PulseClassifier operations (41_pulse_classifier.md): PCL.PULSE and PCL.POLL. -/

namespace Sys2Proof.Machine

/-! ## Writes of the decode state -/

/-- The sweep writes (R145). -/
def DecodeState.afterSweep (d : DecodeState) : DecodeState :=
  { d with gotSweep := true, gotSkip := false, gotNotSkip := false, lhId := .unknown }

/-- The guard writes (R146). -/
def DecodeState.afterGuard (d : DecodeState) : DecodeState :=
  { d with gotSweep := false, gotSkip := false, gotNotSkip := false, lhId := .unknown }

/-- The writes of a sync pulse with skip = 0 (R148). -/
def DecodeState.afterNotSkip (d : DecodeState) (rotor : Bool) : DecodeState :=
  { d with zeroTime := d.lastFall, axis := rotor, gotNotSkip := true,
           lhId := if d.gotSkip then .zero else d.lhId }

/-- The writes of a sync pulse with skip = 1 (R149). -/
def DecodeState.afterSkip (d : DecodeState) : DecodeState :=
  { d with gotSkip := true, lhId := if d.gotNotSkip then .one else d.lhId }

/-! ## The steps of PCL.PULSE on sensor `i` -/

/-- The angle of a sweep, `(delta − T_OFFSET) × π / T_SPAN` in the configured numerics (R144, R154). -/
def sweepAngle (c : Config) (delta : Timestamp) : Option FloatWord := do
  let A := arithOf c.numerics
  let d ← A.ofNat delta.toNat
  let o ← A.ofNat c.tOffset
  let n ← A.sub d o
  let m ← A.mul n A.pi
  let t ← A.ofNat c.tSpan
  A.div m t

/-- Sweep step (R144, R145). A formula without a finite value gives a free angle (log 16). -/
def State.sweepStep (s : State) (i : Nat) (obs : Observation) : PulseRecord × State :=
  let d := (s.sensor i).decode
  let delta := pulseMidpoint obs.rise obs.length - d.zeroTime
  if sweepValid s.config delta d then
    let value := sweepAngle s.config delta
    let angle := value.getD (Config.anyAngle s.draws)
    let s := if value.isSome then s else { s with draws := s.draws + 1 }
    let (ok, t) := s.update i (slotIndex d) angle
    (.sweepValid obs (slotIndex d) angle ok, t.setDecode i d.afterSweep)
  else (.sweepInvalid obs, s.setDecode i d.afterSweep)

/-- Sync step (R147, R148, R149). A forwarded bit raises what OOTX.ADD raises, ProtocolResync included (log 23). -/
def State.syncStep (s : State) (i : Nat) (obs : Observation) : PulseRecord × State :=
  let d := (s.sensor i).decode
  match syncMatch s.config obs.length with
  | none => (.unmatched obs, s.raise (.protocolResync i))
  | some bits =>
    if bits.skip then (.sync obs bits false, s.setDecode i d.afterSkip)
    else
      let t := s.setDecode i (d.afterNotSkip bits.rotor)
      if d.gotSkip then (.sync obs bits true, t.ootxAdd i ((BitVec.ofBool bits.data).setWidth 32))
      else (.sync obs bits false, t)

/-- Guard step (R146); with `CLS_GUARD_FALLTHROUGH` the sync step follows on the same pulse (R156, log 11). -/
def State.guardStep (s : State) (i : Nat) (obs : Observation) : PulseRecord × State :=
  let t := s.setDecode i (s.sensor i).decode.afterGuard
  if s.config.guardFallthrough then t.syncStep i obs
  else (.guard obs, t.raise (.protocolResync i))

/-- PCL.PULSE on sensor `i` (R142): measure, then one of the three branches. -/
def State.pulse (s : State) (i : Nat) (rise : Timestamp) : PulseRecord × State :=
  let d := (s.sensor i).decode
  let obs : Observation := ⟨rise, rise - d.lastFall, rise - d.lastRise⟩
  let t := s.setDecode i { d with lastRise := rise }
  if isSweep s.config obs.length then t.sweepStep i obs
  else if isStale s.config obs.duty d then t.guardStep i obs
  else t.syncStep i obs

/-! ## The two phases of PCL.POLL (R140) -/

/-- Phase F (R141): one read of the falling channel updates `last_fall` unconditionally. `none`: no such channel. -/
def State.pollFalling (s : State) (i : Nat) (w : Wiring) : Option (ReadResult × State) :=
  s.channels[w.fallCh]?.map fun c =>
    let (r, t) := s.readChannel w.fallCh c
    match r.timestamp? with
    | some ts => (r, t.setDecode i { (t.sensor i).decode with lastFall := ts })
    | none => (r, t)

/-- Phase R: one read of the rising channel and, on a sample, PCL.PULSE; the record's loss bit joins both reads
(R140, R153). `none`: no such channel. -/
def State.pollRising (s : State) (i : Nat) (w : Wiring) (falling : ReadResult) : Option State :=
  s.channels[w.riseCh]?.map fun c =>
    let (r, t) := s.readChannel w.riseCh c
    let loss := falling.lost || r.lost
    match r.timestamp? with
    | some ts =>
      let (rec, u) := t.pulse i ts
      u.returns (.polled loss (some rec))
    | none => t.returns (.polled loss none)

/-- Take the services that fall on the interleave point of this poll (log 3). -/
def State.interleavePoint (s : State) : Option State :=
  { s with interleave := s.interleave.tail }.runServices (s.interleave.headD [])

/-- The whole of PCL.POLL: phase F, interleave point, phase R (R140, 20_memory.md R70). -/
def State.poll (s : State) (i : Nat) (w : Wiring) : Option State := do
  let (falling, t) ← s.pollFalling i w
  let u ← t.interleavePoint
  u.pollRising i w falling

/-! ## The operations -/

/-- PCL.PULSE (R142). -/
def execPclPulse (i : Nat) (rise : Timestamp) (s : State) : Answer :=
  asPoll s fun s => onSensor s i (.next (let (rec, t) := s.pulse i rise; t.returns (.pulse rec)))

/-- PCL.POLL (R140). -/
def execPclPoll (i : Nat) (s : State) : Answer :=
  asPoll s fun s => onSensor s i
    (match s.config.wiring[i]? with
     | none => .refused (.sensorOutOfRange i)
     | some w =>
       match s.poll i w with
       | some t => .next t
       | none => .refused .channelOutOfRange)

end Sys2Proof.Machine
end

