-- ==== Sys2Proof/Machine/System.lean ====
section
/-! DEFINITION. RESET (70_reset_and_hazards.md R260). -/

namespace Sys2Proof.Machine

/-- RESET: every register takes the value of 10_state.md R38; what R38 leaves unspecified takes a free value (log 6).
The parameters and what the environment has queued are no registers and stay. -/
def execReset (s : State) : Answer :=
  asPoll s fun s => .next
    { State.afterReset s.config (Config.anyPolarity s.draws) (Config.anySensorFloat s.draws)
        (Config.anySourceFloat s.draws) with
      inbox := s.inbox, interleave := s.interleave, draws := s.draws + 1 }

end Sys2Proof.Machine
end

