-- ==== Sys2Proof/Machine/Dispatch.lean ====
section
/-! DEFINITION. One arm per operation of 30_encoding.md R100. -/

namespace Sys2Proof.Machine

def exec (i : Instr) (s : State) : Host.Outcome State Fault Refusal :=
  match i with
  | .reset => Sys2Proof.Machine.execReset s
  | .ecbBegin pin pol => Sys2Proof.Machine.execEcbBegin pin pol s
  | .ecbTov => Sys2Proof.Machine.execEcbTov s
  | .ecbCap ch low => Sys2Proof.Machine.execEcbCap ch low s
  | .ecbIret => Sys2Proof.Machine.execEcbIret s
  | .ecbRead ch => Sys2Proof.Machine.execEcbRead ch s
  | .pclPoll sensor => Sys2Proof.Machine.execPclPoll sensor s
  | .pclPulse sensor rise => Sys2Proof.Machine.execPclPulse sensor rise s
  | .ootxAdd sensor bit => Sys2Proof.Machine.execOotxAdd sensor bit s
  | .ootxAck sensor => Sys2Proof.Machine.execOotxAck sensor s
  | .ootxRst sensor => Sys2Proof.Machine.execOotxRst sensor s
  | .solSetsrc k rot origin => Sys2Proof.Machine.execSolSetsrc k rot origin s
  | .solUpdate sensor slot angle => Sys2Proof.Machine.execSolUpdate sensor slot angle s
  | .solCompute sensor => Sys2Proof.Machine.execSolCompute sensor s

end Sys2Proof.Machine
end

