-- ==== Sys2Proof/Machine/Step.lean ====
section
/-! DEFINITION. One step: the oldest event the environment has issued names its operation, which runs to completion
(10_state.md R21, 60_exceptions.md R251; log 2). -/

namespace Sys2Proof.Machine

/-- The refusal of an event that is no operation. -/
def refusalOf (code : BitVec 8) : DecodeError → Refusal
  | .unknownCode => .unknownCode code
  | .operandCount => .operandCount code
  | .operandRange => .operandRange code

/-- Take the oldest event and run it; between events the hardware holds its state (60_exceptions.md R250). -/
def step (s : State) : Host.Outcome State Fault Refusal :=
  match s.inbox with
  | [] => .next s
  | e :: rest =>
    match decode e with
    | .ok i => exec i { s with inbox := rest }
    | .error r => .refused (refusalOf e.code r)

/-- `s` with the event whose bits are `w` as the oldest one issued, so that the next step runs it. -/
def State.withFetchWord (s : State) (nbits w : Nat) : State :=
  { s with inbox := eventOfBits nbits w :: s.inbox }

end Sys2Proof.Machine
end

