-- ==== Sys2Proof/Safety.lean ====
section
/-! DEFINITION. The terms claims use: the invariant of the machine, the unread samples of a channel, sequences of
events on one channel, and the serial form of an OOTX frame. -/

namespace Sys2Proof.Machine

/-! ## The invariant -/

/-- One channel in a state the rules allow: indices of `w` bits (10_state.md R24); the ring buffer in canonical form;
an unclaimed channel never moved (40_edge_capture_buffer.md R124); and every one of the newest 64 unread samples lies
in a slot that was written (10_state.md R26). -/
structure Channel.Ok (w : Nat) (c : Channel) : Prop where
  write_lt : c.writeIndex < 2 ^ w
  read_lt : c.readIndex < 2 ^ w
  bank : Memory.wf 64 c.rb
  unclaimed : c.claimed = false → c.writeIndex = 0 ∧ c.readIndex = 0
  written : ∀ k, 1 ≤ k → k ≤ 64 → k ≤ c.gap w → (c.rb.get (slotOf (idxSub w c.writeIndex k))).isSome

/-- A locked lighthouse id needs both skip flags and no sweep in this cycle (41_pulse_classifier.md R151). -/
def DecodeState.Ok (d : DecodeState) : Prop :=
  d.lhId ≠ .unknown → d.gotSkip = true ∧ d.gotNotSkip = true ∧ d.gotSweep = false

/-- The invariants of 42_ootx_decoder.md R187, the ranges of 10_state.md R30, the buffer in canonical form with every
counted byte written (20_memory.md R65). -/
structure FrameState.Ok (f : FrameState) : Prop where
  acc_lt : f.acc.toNat < 2 ^ f.nbits
  preamble_bits : f.mode = .preamble → f.nbits ≤ 17
  word_bits : f.mode ≠ .preamble → f.nbits ≤ 16
  length_le : f.length ≤ 256
  rx_le : f.rxCount ≤ 256
  data : f.mode = .data → f.length % 2 = 0 ∧ 4 ≤ f.length ∧ f.rxCount % 2 = 0 ∧ f.rxCount < f.length
  bank : Memory.wf 256 f.ob
  written : ∀ j, j < f.rxCount → (f.ob.get j).isSome

/-- Between operations the four slots are never all fresh: the fourth triggers a solve, which clears the mask
(43_position_solver.md R202). -/
def SensorFix.Ok (f : SensorFix) : Prop := allFresh f.fresh = false

/-- One sensor. -/
structure Sensor.Ok (sn : Sensor) : Prop where
  decode : sn.decode.Ok
  frame : sn.frame.Ok
  fix : sn.fix.Ok

/-- The invariant of the machine: parameters that meet 00_scope.md R10, arrays of the populations they give, every
channel and sensor in order, and the overflow flag up only inside an interrupt service (10_state.md R22). -/
structure State.Ok (s : State) : Prop where
  config : s.config.wellFormed = true
  nChannels : s.channels.length = s.config.nChannels
  nSensors : s.sensors.length = s.config.nSensors
  busy : s.ovfBusy = true → s.inService = true
  channels : ∀ c ∈ s.channels, c.Ok s.config.idxW
  sensors : ∀ sn ∈ s.sensors, sn.Ok

/-! ## One channel over time -/

/-- The unread samples of a channel whose gap is at most 64, oldest first (10_state.md R26). -/
def Channel.pending (w : Nat) (c : Channel) : List (Option Timestamp) :=
  (List.range (c.gap w)).map fun k => c.rb.get (slotOf (idxAdd w c.readIndex k))

/-- What happens to one channel: the producer appends, or the consumer reads (20_memory.md R67). -/
inductive ChannelEvent where
  | push (ts : Timestamp)
  | read
deriving DecidableEq, Repr

/-- One event: the sample delivered, if the event is a read that delivers one, with its loss mark; and the channel
after. A delivered slot that nothing has written is `none`. -/
def Channel.event (w : Nat) (c : Channel) : ChannelEvent → List (Option Timestamp × Bool) × Channel
  | .push ts => ([], c.append w ts)
  | .read =>
    match c.consume w with
    | none => ([], c)
    | some (r, loss, c') => ([(c.rb.get (slotOf r), loss)], c')

/-- A sequence of events: everything delivered, in order, and the channel after. -/
def Channel.events (w : Nat) : Channel → List ChannelEvent → List (Option Timestamp × Bool) × Channel
  | c, [] => ([], c)
  | c, e :: rest =>
    let (out, c') := c.event w e
    let (outs, c'') := c'.events w rest
    (out ++ outs, c'')

/-- The timestamps pushed by a sequence of events, in order. -/
def pushed : List ChannelEvent → List Timestamp
  | [] => []
  | .push ts :: rest => ts :: pushed rest
  | .read :: rest => pushed rest

/-- The gap never exceeds 64 during a sequence of events. -/
def Channel.NeverLapped (w : Nat) : Channel → List ChannelEvent → Prop
  | c, [] => c.gap w ≤ 64
  | c, e :: rest => c.gap w ≤ 64 ∧ Channel.NeverLapped w (c.event w e).2 rest

/-! ## OOTX frames on the wire (30_encoding.md R93 to R95) -/

/-- The bits of a word, most significant first, then the sync bit. -/
def wordBits (word : BitVec 16) (sync : Bool) : List Bool :=
  (List.range 16).map (fun k => word.getLsbD (15 - k)) ++ [sync]

/-- Seventeen zeros, then a one. -/
def preambleBits : List Bool := List.replicate 17 false ++ [true]

/-- A whole frame: preamble, length word, data words. -/
def frameBits (payload : BitVec 16) (words : List (BitVec 16)) : List Bool :=
  preambleBits ++ wordBits payload true ++ words.flatMap fun w => wordBits w true

/-- One bit as the operand of OOTX.ADD. -/
def bitOperand (b : Bool) : BitVec 32 := (BitVec.ofBool b).setWidth 32

/-- Feed bits to a decoder, one OOTX.ADD each. -/
def FrameState.feed (i : Nat) (f : FrameState) (bits : List Bool) : FrameState :=
  bits.foldl (fun g b => (g.add i (bitOperand b)).1) f

/-- The bytes of a list of words, high byte first (20_memory.md R63). -/
def wordBytes (words : List (BitVec 16)) : List (BitVec 8) :=
  words.flatMap fun w => [w.extractLsb' 8 8, w.extractLsb' 0 8]

/-! ## Operations grouped by agent (60_exceptions.md R245) -/

/-- The operations of the interrupt context. -/
def isIrq : Instr → Bool
  | .ecbTov => true
  | .ecbCap _ _ => true
  | .ecbIret => true
  | _ => false

/-- The events of one whole service, in order (20_memory.md R69). -/
def serviceEvents (v : Service) : List Instr :=
  (if v.overflow then [Instr.ecbTov] else []) ++ v.captures.map (fun p => Instr.ecbCap p.1 p.2) ++ [Instr.ecbIret]

/-- Operations one after another, stopping at the first that is refused. -/
def execAll : List Instr → State → Answer
  | [], s => .next s
  | i :: rest, s =>
    match exec i s with
    | .next t => execAll rest t
    | .fault f => .fault f
    | .refused r => .refused r

/-- Every capture scheduled for the next interleave point names a channel that exists. -/
def State.servicesInRange (s : State) : Prop :=
  ∀ v ∈ s.interleave.headD [], ∀ p ∈ v.captures, p.1 < s.channels.length

end Sys2Proof.Machine
end

