-- ==== Sys2Proof/Certificates/Slice0/Obligations.lean ====
section
/-! DEFINITION. The statements for the provers. Each docstring names the rule of spec/ it formalises. -/

open Sys2Proof Sys2Proof.Machine

/-! ## Encoding and dispatch -/

/-- 30_encoding.md R100, R101: decoding the encoding of any operation gives it back, with every operand at every
value the encoding admits. The operand words are the model's choice, log 1. -/
def Obligations.DecodeEncodeRoundTrip : Prop :=
  ∀ i : Instr, i.fits = true → decode (encode i) = .ok i

/-- 30_encoding.md R100 to R102: every event that decodes is the one encoding of the operation it decodes to, so no
two events mean the same operation and no event means two. The operand words are the model's choice, log 1. -/
def Obligations.EncodeDecodeExact : Prop :=
  ∀ (e : Event) (i : Instr), decode e = .ok i → i.fits = true ∧ encode i = e

/-- 30_encoding.md R100, R98: events written out from the table decode to the operations they stand for; the matrix of
SOL.SETSRC comes in row-major order. The operand list, the bits of an event above its code, and that an absent operand
reads as 0 are the model's choice, log 1. -/
def Obligations.WrittenEventsDecode : Prop :=
  decode ⟨0x12, [3, 0xE123]⟩ = .ok (.ecbCap 3 0xE123) ∧
  decode ⟨0x10, [4, 1]⟩ = .ok (.ecbBegin 4 .rising) ∧
  decode ⟨0x41, [0, 255, 0x3F800000]⟩ = .ok (.solUpdate 0 255 0x3F800000) ∧
  decode ⟨0x40, [1, 10, 11, 12, 20, 21, 22, 30, 31, 32, 40, 41, 42]⟩ =
    .ok (.solSetsrc 1 ⟨⟨10, 11, 12⟩, ⟨20, 21, 22⟩, ⟨30, 31, 32⟩⟩ ⟨40, 41, 42⟩) ∧
  decodeTableWord 8 0x20 = some (.pclPoll 0)

/-- 30_encoding.md R102: a code outside R100 is refused; an index outside its range is refused; a `bit` outside 0 and 1
and a `slot` outside 0 to 3 are not. -/
def Obligations.RefusedCodesAndIndices : Prop :=
  (∀ (s : State) (e : Event) (rest : List Event), s.inbox = e :: rest → e.code ∉ operationCodes →
    step s = .refused (.unknownCode e.code)) ∧
  (∀ (s : State) (i : Instr), s.channels.length = s.config.nChannels → s.sensors.length = s.config.nSensors →
    i.inRange s.config = false → ∃ r, exec i s = .refused r) ∧
  (∀ (s : State) (i : Nat) (bit : BitVec 32), s.inService = false → i < s.sensors.length →
    ∃ t, exec (.ootxAdd i bit) s = .next t) ∧
  (∀ (s : State) (i : Nat) (slot : BitVec 8) (angle : FloatWord), s.inService = false → i < s.sensors.length →
    ∃ t, exec (.solUpdate i slot angle) s = .next t)

/-- 60_exceptions.md R251 (a), R250: each event names its operation, and a step is that operation, the event taken;
between events the hardware holds its state. The inbox is the model's choice, log 2. -/
def Obligations.StepRunsDecodedEvent : Prop :=
  (∀ (s : State) (e : Event) (rest : List Event) (i : Instr), s.inbox = e :: rest → decode e = .ok i →
    step s = exec i { s with inbox := rest }) ∧
  (∀ s : State, s.inbox = [] → step s = .next s)

/-! ## The whole machine -/

/-- The state after reset meets the invariant. It rests on the instantiation and the values log 5, 7 and 8 name. -/
def Obligations.ResetStateOk : Prop := State.reset.Ok

/-- Every step keeps the invariant: index ranges and the written slots of every ring buffer (10_state.md R24, R26), the
canonical form of both memories, R187 of 42_ootx_decoder.md, R151 of 41_pulse_classifier.md, R202 of
43_position_solver.md, the overflow flag only inside a service (10_state.md R22). -/
def Obligations.StepKeepsOk : Prop :=
  ∀ s t : State, s.Ok → step s = .next t → t.Ok

/-- 10_state.md R35, R39: the parameters are no state, no step changes them. That State carries them is the model's choice,
log 8. -/
def Obligations.StepKeepsParameters : Prop :=
  ∀ s t : State, step s = .next t → t.config = s.config

/-- 20_memory.md R67, 10_state.md R25: ring buffers, write indices, overflow counter and flag are the producer's; an
operation of POLL other than RESET, ECB.BEGIN and PCL.POLL (at whose interleave point services run) leaves them. -/
def Obligations.ConsumerLeavesProducerState : Prop :=
  ∀ (s t : State) (i : Instr), isIrq i = false → i ≠ .reset → (∀ pin pol, i ≠ .ecbBegin pin pol) →
    (∀ sensor, i ≠ .pclPoll sensor) → exec i s = .next t →
    t.ovfCounter = s.ovfCounter ∧ t.ovfBusy = s.ovfBusy ∧
    t.channels.map (fun c => (c.writeIndex, c.rb)) = s.channels.map (fun c => (c.writeIndex, c.rb)) ∧
    t.channels.map (fun c => (c.claimed, c.polarity)) = s.channels.map (fun c => (c.claimed, c.polarity))

/-- 20_memory.md R67, 10_state.md R25: an operation of IRQ leaves every read index, every claim, every sensor, both light
sources and the parameters. -/
def Obligations.ProducerLeavesConsumerState : Prop :=
  ∀ (s t : State) (i : Instr), isIrq i = true → exec i s = .next t →
    t.sensors = s.sensors ∧ t.src0 = s.src0 ∧ t.src1 = s.src1 ∧ t.config = s.config ∧ t.draws = s.draws ∧
    t.inbox = s.inbox ∧ t.interleave = s.interleave ∧
    t.channels.map (fun c => (c.readIndex, c.claimed, c.polarity)) =
      s.channels.map (fun c => (c.readIndex, c.claimed, c.polarity))

/-- 70_reset_and_hazards.md R265, 20_memory.md R69: inside an interrupt service no operation of POLL has a meaning, nor
a second ECB.TOV. When a service counts as open is the model's deduction, log 4. -/
def Obligations.ServiceExcludesPoll : Prop :=
  (∀ (s : State) (i : Instr), s.inService = true → isIrq i = false → exec i s = .refused .pollInsideService) ∧
  (∀ s : State, s.inService = true → exec .ecbTov s = .refused .overflowInsideService)

/-- 70_reset_and_hazards.md R260, 10_state.md R38: RESET gives every register R38 gives a value that value, for any
instantiation; it keeps the parameters and what the environment has queued. -/
def Obligations.ResetOperationClears : Prop :=
  ∀ s : State, s.inService = false → ∃ t, exec .reset s = .next t ∧
    t.ovfCounter = 0 ∧ t.ovfBusy = false ∧ t.inService = false ∧
    t.channels.length = s.config.nChannels ∧
    (∀ c ∈ t.channels, c.claimed = false ∧ c.writeIndex = 0 ∧ c.readIndex = 0) ∧
    t.sensors.length = s.config.nSensors ∧
    (∀ sn ∈ t.sensors, sn.decode = ⟨0, 0, 0, false, .unknown, false, false, false⟩ ∧
      sn.frame.acc = 0 ∧ sn.frame.nbits = 0 ∧ sn.frame.mode = .preamble ∧ sn.frame.rxCount = 0 ∧
      sn.frame.length = 0 ∧ sn.frame.padding = false ∧ sn.frame.complete = false ∧ sn.fix.fresh = 0) ∧
    t.src0.valid = false ∧ t.src1.valid = false ∧
    t.config = s.config ∧ t.inbox = s.inbox ∧ t.interleave = s.interleave ∧ t.output = ⟨.nothing, []⟩

/-! ## EdgeCaptureBuffer -/

/-- 40_edge_capture_buffer.md R110: claiming an unclaimed channel writes the claim, the polarity and both indices and
nothing else; claiming it again fails and changes no register; a pin out of range is refused. -/
def Obligations.BeginClaimsChannel : Prop :=
  (∀ (s : State) (pin ch : Nat) (pol : Polarity) (c : Channel), s.inService = false →
    s.config.pinToChannel[pin]? = some ch → s.channels[ch]? = some c →
    (c.claimed = false → exec (.ecbBegin pin pol) s = .next
      { s with
        channels := s.channels.set ch
          { claimed := true, polarity := pol, writeIndex := 0, readIndex := 0, rb := c.rb }
        output := ⟨.begun true, []⟩ }) ∧
    (c.claimed = true → exec (.ecbBegin pin pol) s = .next
      { s with output := ⟨.begun false, [.configurationConflict ch]⟩ })) ∧
  (∀ (s : State) (pin : Nat) (pol : Polarity), s.inService = false → s.config.nPins ≤ pin →
    exec (.ecbBegin pin pol) s = .refused (.pinOutOfRange pin))

/-- 40_edge_capture_buffer.md R112: ECB.TOV counts the wrap modulo 2^16 and sets the flag, whether or not any channel is
claimed, at most once in a service. The field `inService` is the model's, log 4. -/
def Obligations.OverflowCounts : Prop :=
  ∀ s : State,
    (s.inService = false → exec .ecbTov s = .next
      { s with ovfCounter := s.ovfCounter + 1, ovfBusy := true, inService := true, output := ⟨.nothing, []⟩ }) ∧
    (s.inService = true → exec .ecbTov s = .refused .overflowInsideService)

/-- 40_edge_capture_buffer.md R113, R114: ECB.CAP on a claimed channel stores `hi ‖ low` in slot `write_index mod 64`,
with `hi` one less than the counter when `low ≥ HIGH_WATER` and the flag is up, and advances the index; every other slot
and register stays. On an unclaimed channel it changes no register. The field `inService`, up after either, is the
model's deduction from 20_memory.md R69, log 4. -/
def Obligations.CaptureAppends : Prop :=
  ∀ (s : State) (ch : Nat) (low : BitVec 16) (c : Channel), s.channels[ch]? = some c →
    (c.claimed = false → exec (.ecbCap ch low) s = .next
      { s with inService := true, output := ⟨.nothing, []⟩ }) ∧
    (c.claimed = true → ∃ rb, exec (.ecbCap ch low) s = .next
        { s with
          channels := s.channels.set ch
            { c with rb := rb, writeIndex := (c.writeIndex + 1) % 2 ^ s.config.idxW }
          inService := true
          output := ⟨.nothing, []⟩ } ∧
      rb.get (c.writeIndex % 64) = some
        ((if s.config.highWater ≤ low.toNat ∧ s.ovfBusy = true then s.ovfCounter - 1 else s.ovfCounter) ++ low) ∧
      ∀ j, j ≠ c.writeIndex % 64 → rb.get j = c.rb.get j)

/-- 40_edge_capture_buffer.md R116: ECB.IRET clears the flag, ends the service and changes no other register. -/
def Obligations.InterruptReturnClearsFlag : Prop :=
  ∀ s : State, exec .ecbIret s = .next
    { s with ovfBusy := false, inService := false, output := ⟨.nothing, []⟩ }

/-- 40_edge_capture_buffer.md R120, R121: what ECB.READ answers and writes: NoData and nothing when the indices are
equal; the oldest unread timestamp while the gap is at most 64; after a larger gap the timestamp of index
`write_index − 63`, with loss. -/
def Obligations.ReadDelivers : Prop :=
  ∀ (s : State) (ch : Nat) (c : Channel), s.inService = false → s.channels[ch]? = some c →
    let gap := (c.writeIndex + (2 ^ s.config.idxW - c.readIndex % 2 ^ s.config.idxW)) % 2 ^ s.config.idxW
    let r := idxAdd s.config.idxW (idxSub s.config.idxW c.writeIndex 64) 1
    (c.writeIndex = c.readIndex → exec (.ecbRead ch) s = .next { s with output := ⟨.read .noData, []⟩ }) ∧
    (∀ ts, c.writeIndex ≠ c.readIndex → gap ≤ 64 → c.rb.get (c.readIndex % 64) = some ts →
      exec (.ecbRead ch) s = .next
        { s with
          channels := s.channels.set ch { c with readIndex := (c.readIndex + 1) % 2 ^ s.config.idxW }
          output := ⟨.read (.sample ts), []⟩ }) ∧
    (∀ ts, c.writeIndex ≠ c.readIndex → 64 < gap → c.rb.get (r % 64) = some ts →
      exec (.ecbRead ch) s = .next
        { s with
          channels := s.channels.set ch { c with readIndex := (r + 1) % 2 ^ s.config.idxW }
          output := ⟨.read (.sampleWithLoss ts), [.sampleLoss ch]⟩ })

/-- 40_edge_capture_buffer.md R124: a channel that was never claimed answers NoData. -/
def Obligations.ReadOfUnclaimedIsNoData : Prop :=
  ∀ (s : State) (ch : Nat) (c : Channel), s.Ok → s.inService = false → s.channels[ch]? = some c →
    c.claimed = false → exec (.ecbRead ch) s = .next { s with output := ⟨.read .noData, []⟩ }

/-- 10_state.md R26, R38: a slot is read only after it was written, so ECB.READ never answers a free value. -/
def Obligations.ReadNeverMeetsUnwrittenSlot : Prop :=
  ∀ (s t : State) (ch : Nat), s.Ok → exec (.ecbRead ch) s = .next t → t.draws = s.draws

/-- 40_edge_capture_buffer.md R118: under the environment contract R117, ECB.CAP stores the true tick of the edge
modulo 2^32. `T` is the tick of the edge, `C` of its capture, `j` the overflows counted by then, the last of which
happened by `C`: the counter is that of the edge, or one more inside the service of the wrap after it (E1, E3, E4); the
capture comes less than `65536 − HIGH_WATER` ticks after the edge (E5); a service with an overflow ends less than
`HIGH_WATER` ticks after the wrap (E6). -/
def Obligations.ReconstructionCorrectUnderContract : Prop :=
  ∀ (s : State) (ch T C j : Nat) (c : Channel), s.channels[ch]? = some c → c.claimed = true →
    0 < s.config.highWater → s.config.highWater < 65536 → s.ovfCounter = BitVec.ofNat 16 j → T ≤ C → 65536 * j ≤ C →
    (j = T / 65536 ∨ (j = T / 65536 + 1 ∧ s.ovfBusy = true)) →
    C < T + (65536 - s.config.highWater) →
    (s.ovfBusy = true → C < 65536 * j + s.config.highWater) →
    ∃ t c', exec (.ecbCap ch (BitVec.ofNat 16 T)) s = .next t ∧ t.channels[ch]? = some c' ∧
      c'.rb.get (c.writeIndex % 64) = some (BitVec.ofNat 32 T)

/-- 40_edge_capture_buffer.md R122: for any interleaving of captures and reads during which the gap never exceeds 64,
every timestamp appended is delivered exactly once, in order and without loss mark, or is still unread. -/
def Obligations.FifoDelivery : Prop :=
  ∀ (w : Nat) (c : Channel) (l : List ChannelEvent), 7 ≤ w → c.Ok w → c.claimed = true →
    c.writeIndex = c.readIndex → c.NeverLapped w l →
    (c.events w l).1.map Prod.fst ++ (c.events w l).2.pending w = (pushed l).map some ∧
    ∀ p ∈ (c.events w l).1, p.2 = false

/-- 40_edge_capture_buffer.md R123, R121: after `N > 64` captures and no read, 63 reads deliver the newest 63
timestamps in order, the first with the loss mark and the others without, and the 64th read answers NoData. -/
def Obligations.LossHeals : Prop :=
  ∀ (w : Nat) (c : Channel) (l : List Timestamp), 7 ≤ w → c.claimed = true → c.writeIndex = 0 → c.readIndex = 0 →
    64 < l.length → l.length < 2 ^ w →
    let full := (c.events w (l.map .push)).2
    let drained := full.events w (List.replicate 63 .read)
    drained.1 = (l.drop (l.length - 63)).mapIdx (fun k ts => (some ts, k == 0)) ∧
    (drained.2.event w .read).1 = []

/-! ## PulseClassifier -/

/-- 41_pulse_classifier.md R142, R144, R145: a short pulse that is no valid sweep emits nothing and makes the sweep
writes; `last_rise` follows the edge. -/
def Obligations.PulseInvalidSweep : Prop :=
  ∀ (s : State) (i : Nat) (rise : Timestamp) (sn : Sensor), s.inService = false → s.sensors[i]? = some sn →
    let d := sn.decode
    let length := rise - d.lastFall
    let delta := rise - length / 2 - d.zeroTime
    length.toNat < s.config.tShort →
    ¬(d.gotSweep = false ∧ d.lhId ≠ .unknown ∧ delta.toNat ≤ s.config.tWindow) →
    exec (.pclPulse i rise) s = .next
      { s with
        sensors := s.sensors.set i { sn with decode := { d with
          lastRise := rise, gotSweep := true, gotSkip := false, gotNotSkip := false, lhId := .unknown } }
        output := ⟨.pulse (.sweepInvalid ⟨rise, length, rise - d.lastRise⟩), []⟩ }

/-- 41_pulse_classifier.md R144, R145: a valid sweep performs SOL.UPDATE of slot `2 lh_id + axis` with the angle
`(delta − T_OFFSET) × π / T_SPAN`, rounded operation by operation (the model's choice, log 12), and then makes the sweep
writes. -/
def Obligations.PulseValidSweep : Prop :=
  ∀ (s : State) (i : Nat) (rise : Timestamp) (sn : Sensor) (lh : Nat) (d o n m p angle : FloatWord),
    s.inService = false → s.sensors[i]? = some sn →
    let A := arithOf s.config.numerics
    let length := rise - sn.decode.lastFall
    let delta := rise - length / 2 - sn.decode.zeroTime
    let slot := lh * 2 + sn.decode.axis.toNat
    length.toNat < s.config.tShort → sn.decode.gotSweep = false → delta.toNat ≤ s.config.tWindow →
    (sn.decode.lhId = .zero ∧ lh = 0 ∨ sn.decode.lhId = .one ∧ lh = 1) →
    A.ofNat delta.toNat = some d → A.ofNat s.config.tOffset = some o → A.sub d o = some n → A.mul n A.pi = some m →
    A.ofNat s.config.tSpan = some p → A.div m p = some angle →
    ∃ u ok, exec (.solUpdate i (BitVec.ofNat 8 slot) angle) s = .next u ∧ u.output.result = .updated ok ∧
      exec (.pclPulse i rise) s = .next
        { u with
          sensors := u.sensors.set i { u.sensor i with decode := { sn.decode with
            lastRise := rise, gotSweep := true, gotSkip := false, gotNotSkip := false, lhId := .unknown } }
          output := ⟨.pulse (.sweepValid ⟨rise, length, rise - sn.decode.lastRise⟩ slot angle ok),
            u.output.conditions⟩ }

/-- 41_pulse_classifier.md R142, R146: a long pulse after a long gap or after a sweep takes the guard: id unknown, the
three flags clear, ProtocolResync, and nothing else but `last_rise`. -/
def Obligations.PulseTakesGuard : Prop :=
  ∀ (s : State) (i : Nat) (rise : Timestamp) (sn : Sensor), s.inService = false → s.sensors[i]? = some sn →
    let d := sn.decode
    let length := rise - d.lastFall
    let duty := rise - d.lastRise
    s.config.guardFallthrough = false → s.config.tShort ≤ length.toNat →
    (s.config.tGap < duty.toNat ∨ d.gotSweep = true) →
    exec (.pclPulse i rise) s = .next
      { s with
        sensors := s.sensors.set i { sn with decode := { d with
          lastRise := rise, lhId := .unknown, gotSkip := false, gotNotSkip := false, gotSweep := false } }
        output := ⟨.pulse (.guard ⟨rise, length, duty⟩), [.protocolResync i]⟩ }

/-- 41_pulse_classifier.md R147: a width in no window changes nothing but `last_rise`, with ProtocolResync. -/
def Obligations.PulseUnmatchedWidth : Prop :=
  ∀ (s : State) (i : Nat) (rise : Timestamp) (sn : Sensor), s.inService = false → s.sensors[i]? = some sn →
    let d := sn.decode
    let length := rise - d.lastFall
    let duty := rise - d.lastRise
    s.config.tShort ≤ length.toNat → duty.toNat ≤ s.config.tGap → d.gotSweep = false →
    (∀ code ∈ s.config.sync,
      ¬(code.center ≤ length.toNat + s.config.syncTol ∧ length.toNat ≤ code.center + s.config.syncTol)) →
    exec (.pclPulse i rise) s = .next
      { s with
        sensors := s.sensors.set i { sn with decode := { d with lastRise := rise } }
        output := ⟨.pulse (.unmatched ⟨rise, length, duty⟩), [.protocolResync i]⟩ }

/-- 41_pulse_classifier.md R148: a sync pulse with skip = 0 records its own falling edge and rotor and sets
`got_not_skip`; when `got_skip` was already set, the id becomes 0 and the data bit goes through OOTX.ADD; else the id
stays and nothing is forwarded. The conditions of that OOTX.ADD are reported, ProtocolResync included, which is the
model's choice, log 23. -/
def Obligations.PulseNotSkip : Prop :=
  ∀ (s : State) (i : Nat) (rise : Timestamp) (sn : Sensor) (code : SyncCode), s.inService = false →
    s.sensors[i]? = some sn → s.config.wellFormed = true → code ∈ s.config.sync → code.bits.skip = false →
    let d := sn.decode
    let length := rise - d.lastFall
    let duty := rise - d.lastRise
    code.center ≤ length.toNat + s.config.syncTol → length.toNat ≤ code.center + s.config.syncTol →
    duty.toNat ≤ s.config.tGap → d.gotSweep = false →
    (d.gotSkip = false → exec (.pclPulse i rise) s = .next
      { s with
        sensors := s.sensors.set i { sn with decode := { d with
          lastRise := rise, zeroTime := d.lastFall, axis := code.bits.rotor, gotNotSkip := true } }
        output := ⟨.pulse (.sync ⟨rise, length, duty⟩ code.bits false), []⟩ }) ∧
    (d.gotSkip = true → ∃ u, exec (.ootxAdd i (bitOperand code.bits.data)) s = .next u ∧
      exec (.pclPulse i rise) s = .next
        { u with
          sensors := u.sensors.set i { u.sensor i with decode := { d with
            lastRise := rise, zeroTime := d.lastFall, axis := code.bits.rotor, gotNotSkip := true, lhId := .zero } }
          output := ⟨.pulse (.sync ⟨rise, length, duty⟩ code.bits true), u.output.conditions⟩ })

/-- 41_pulse_classifier.md R149: a sync pulse with skip = 1 sets `got_skip`, and the id becomes 1 when `got_not_skip`
was already set; `zero_time` and `axis` stay and nothing is forwarded. -/
def Obligations.PulseSkip : Prop :=
  ∀ (s : State) (i : Nat) (rise : Timestamp) (sn : Sensor) (code : SyncCode), s.inService = false →
    s.sensors[i]? = some sn → s.config.wellFormed = true → code ∈ s.config.sync → code.bits.skip = true →
    let d := sn.decode
    let length := rise - d.lastFall
    let duty := rise - d.lastRise
    code.center ≤ length.toNat + s.config.syncTol → length.toNat ≤ code.center + s.config.syncTol →
    duty.toNat ≤ s.config.tGap → d.gotSweep = false →
    exec (.pclPulse i rise) s = .next
      { s with
        sensors := s.sensors.set i { sn with decode := { d with
          lastRise := rise, gotSkip := true, lhId := if d.gotNotSkip = true then .one else d.lhId } }
        output := ⟨.pulse (.sync ⟨rise, length, duty⟩ code.bits false), []⟩ }

/-- 41_pulse_classifier.md R156: with `CLS_GUARD_FALLTHROUGH` the guard's writes come first and the same pulse is then
classified; the flags being clear, no id is set and nothing is forwarded. That the guard's own ProtocolResync is not
raised here is the model's deduction, log 11. -/
def Obligations.GuardFallthrough : Prop :=
  ∀ (s : State) (i : Nat) (rise : Timestamp) (sn : Sensor), s.inService = false → s.sensors[i]? = some sn →
    let d := sn.decode
    let obs : Observation := ⟨rise, rise - d.lastFall, rise - d.lastRise⟩
    let guarded : DecodeState :=
      { d with lastRise := rise, lhId := .unknown, gotSkip := false, gotNotSkip := false, gotSweep := false }
    s.config.guardFallthrough = true → s.config.tShort ≤ obs.length.toNat →
    (s.config.tGap < obs.duty.toNat ∨ d.gotSweep = true) →
    (syncMatch s.config obs.length = none → exec (.pclPulse i rise) s = .next
      { s with
        sensors := s.sensors.set i { sn with decode := guarded }
        output := ⟨.pulse (.unmatched obs), [.protocolResync i]⟩ }) ∧
    (∀ bits, syncMatch s.config obs.length = some bits → exec (.pclPulse i rise) s = .next
      { s with
        sensors := s.sensors.set i { sn with decode :=
          if bits.skip then { guarded with gotSkip := true }
          else { guarded with zeroTime := d.lastFall, axis := bits.rotor, gotNotSkip := true } }
        output := ⟨.pulse (.sync obs bits false), []⟩ })

/-- 41_pulse_classifier.md R152: of the pulses that reach the sync step, one of a centre width returns the exact triple,
and one strictly between the windows of two neighbouring codes returns UNMATCHED. -/
def Obligations.SyncClassificationExact : Prop :=
  ∀ (s : State) (i : Nat) (rise : Timestamp) (sn : Sensor), s.inService = false → s.sensors[i]? = some sn →
    s.config.wellFormed = true → sn.decode.gotSweep = false →
    (rise - sn.decode.lastRise).toNat ≤ s.config.tGap →
    let obs : Observation := ⟨rise, rise - sn.decode.lastFall, rise - sn.decode.lastRise⟩
    (∀ code ∈ s.config.sync, obs.length.toNat = code.center →
      ∃ t forwarded, exec (.pclPulse i rise) s = .next t ∧ t.output.result = .pulse (.sync obs code.bits forwarded)) ∧
    (∀ a ∈ s.config.sync, ∀ b ∈ s.config.sync,
      (∀ code ∈ s.config.sync, code.center ≤ a.center ∨ b.center ≤ code.center) →
      a.center + s.config.syncTol < obs.length.toNat → obs.length.toNat + s.config.syncTol < b.center →
      ∃ t, exec (.pclPulse i rise) s = .next t ∧ t.output.result = .pulse (.unmatched obs))

/-- 30_encoding.md R89: in any instantiation that meets R10, at most one window holds a length, so the order in which
the windows are tried is not observable. -/
def Obligations.SyncMatchUnique : Prop :=
  ∀ (c : Config) (length : Timestamp) (a b : SyncCode), c.wellFormed = true → a ∈ c.sync → b ∈ c.sync →
    inWindow c.syncTol a length.toNat = true → inWindow c.syncTol b length.toNat = true → a = b

/-- 41_pulse_classifier.md R150: the decoder changes only on a matched sync pulse with skip = 0 that arrives when
`got_skip` is set, and then by one OOTX.ADD of a bit that is 0 or 1. -/
def Obligations.OnlyNotSkipAfterSkipForwards : Prop :=
  ∀ (s t : State) (i : Nat) (rise : Timestamp), exec (.pclPulse i rise) s = .next t →
    (t.sensor i).frame = (s.sensor i).frame ∨
    ∃ obs bits, t.output.result = .pulse (.sync obs bits true) ∧ bits.skip = false ∧
      (s.sensor i).decode.gotSkip = true ∧
      (t.sensor i).frame = ((s.sensor i).frame.add i (bitOperand bits.data)).1

/-- 41_pulse_classifier.md R144, R151: in a state that meets the invariant, an angle is emitted only after sync pulses
with both skip bits and no sweep in this cycle. -/
def Obligations.AngleNeedsLockedId : Prop :=
  ∀ (s t : State) (i slot : Nat) (rise : Timestamp) (obs : Observation) (angle : FloatWord) (ok : Bool), s.Ok →
    exec (.pclPulse i rise) s = .next t → t.output.result = .pulse (.sweepValid obs slot angle ok) →
    (s.sensor i).decode.gotSkip = true ∧ (s.sensor i).decode.gotNotSkip = true ∧
      (s.sensor i).decode.gotSweep = false ∧ slot < 4

/-- 41_pulse_classifier.md R142 and R158: PCL.PULSE completes for every sensor outside a service; it writes `last_rise`
and, of everything else, only the decode state, the decoder and the angles of its own sensor. -/
def Obligations.PulseFrame : Prop :=
  ∀ (s : State) (i : Nat) (rise : Timestamp), s.inService = false → i < s.sensors.length →
    ∃ t, exec (.pclPulse i rise) s = .next t ∧
      (t.sensor i).decode.lastRise = rise ∧ (t.sensor i).decode.lastFall = (s.sensor i).decode.lastFall ∧
      (∀ j, j ≠ i → t.sensors[j]? = s.sensors[j]?) ∧ t.sensors.length = s.sensors.length ∧
      t.channels = s.channels ∧ t.ovfCounter = s.ovfCounter ∧ t.ovfBusy = s.ovfBusy ∧ t.inService = s.inService ∧
      t.src0 = s.src0 ∧ t.src1 = s.src1 ∧ t.config = s.config ∧ t.inbox = s.inbox ∧ t.interleave = s.interleave

/-- 41_pulse_classifier.md R140: with no sample on either channel and no service at the interleave point, PCL.POLL
returns `kind = NONE` and changes no register. -/
def Obligations.PollWithoutSamples : Prop :=
  ∀ (s : State) (i : Nat) (w : Wiring) (cf cr : Channel), s.inService = false → i < s.sensors.length →
    s.config.wiring[i]? = some w → s.channels[w.fallCh]? = some cf → s.channels[w.riseCh]? = some cr →
    cf.writeIndex = cf.readIndex → cr.writeIndex = cr.readIndex → s.interleave = [] →
    exec (.pclPoll i) s = .next { s with output := ⟨.polled false none, []⟩ }

/-- 30_encoding.md R103, 41_pulse_classifier.md R140, R141: PCL.POLL is ECB.READ of the falling channel, the update of
`last_fall`, the interleave point, ECB.READ of the rising channel, and PCL.PULSE when that read delivered a sample; the
record's loss bit joins both reads, the conditions come in program order. -/
def Obligations.PollIsItsExpansion : Prop :=
  ∀ (s s1 s3 s4 : State) (i : Nat) (w : Wiring) (r1 r2 : ReadResult), i < s.sensors.length →
    s.config.wiring[i]? = some w →
    exec (.ecbRead w.fallCh) s = .next s1 → s1.output.result = .read r1 →
    (match r1.timestamp? with
      | some ts => s1.setDecode i { (s1.sensor i).decode with lastFall := ts }
      | none => s1).interleavePoint = some s3 →
    exec (.ecbRead w.riseCh) s3 = .next s4 → s4.output.result = .read r2 →
    (r2.timestamp? = none → exec (.pclPoll i) s = .next
      { s4 with output := ⟨.polled (r1.lost || r2.lost) none, s1.output.conditions ++ s4.output.conditions⟩ }) ∧
    (∀ ts s5 rec, r2.timestamp? = some ts → exec (.pclPulse i ts) s4 = .next s5 → s5.output.result = .pulse rec →
      exec (.pclPoll i) s = .next
        { s5 with output := ⟨.polled (r1.lost || r2.lost) (some rec),
            s1.output.conditions ++ s4.output.conditions ++ s5.output.conditions⟩ })

/-- 41_pulse_classifier.md R140: PCL.POLL completes in every state that meets the invariant, outside a service, whatever
services with existing channels fall on its interleave point (the model's form of the schedule, log 3). -/
def Obligations.PollCompletes : Prop :=
  ∀ (s : State) (i : Nat), s.Ok → s.inService = false → i < s.sensors.length → s.servicesInRange →
    ∃ t loss rec, exec (.pclPoll i) s = .next t ∧ t.output.result = .polled loss rec

/-- 20_memory.md R69, R70: a service at an interleave point is its events one after another, ECB.TOV if it has one,
the captures, ECB.IRET; the interleave point runs the services of the schedule's head one after another and takes that
head, and with an empty schedule it does nothing. The form of the schedule is the model's choice, log 3. -/
def Obligations.ServiceIsItsEvents : Prop :=
  (∀ (s t : State) (v : Service), s.inService = false → s.runService v = some t →
    execAll (serviceEvents v) s = .next { t with output := ⟨.nothing, []⟩ } ∧ t.output = s.output) ∧
  (∀ (s : State) (l : List Service) (rest : List (List Service)), s.inService = false → s.interleave = l :: rest →
    s.servicesInRange → ∃ t, s.interleavePoint = some t ∧
      execAll (l.flatMap serviceEvents) { s with interleave := rest } =
        .next { t with output := if l = [] then s.output else ⟨.nothing, []⟩ } ∧
      t.interleave = rest ∧ t.output = s.output ∧ t.inService = false) ∧
  (∀ s : State, s.interleave = [] → s.interleavePoint = some s)

/-! ## OOTXDecoder -/

/-- 42_ootx_decoder.md R172: a value other than 0 and 1 resets to preamble hunting in whatever mode; nothing is shifted
in and nothing else changes. -/
def Obligations.MalformedBitResets : Prop :=
  ∀ (s : State) (i : Nat) (bit : BitVec 32) (sn : Sensor), s.inService = false → s.sensors[i]? = some sn →
    2 ≤ bit.toNat → exec (.ootxAdd i bit) s = .next
      { s with
        sensors := s.sensors.set i { sn with frame := { sn.frame with mode := .preamble, acc := 0, nbits := 0 } }
        output := ⟨.nothing, [.protocolResync i]⟩ }

/-- 42_ootx_decoder.md R173: the preamble step: shift, and at 18 bits match `0x00001` or drop the oldest bit. -/
def Obligations.PreambleStep : Prop :=
  ∀ (s : State) (i : Nat) (bit : BitVec 32) (sn : Sensor), s.inService = false → s.sensors[i]? = some sn →
    bit.toNat ≤ 1 → sn.frame.mode = .preamble →
    let acc : BitVec 18 := sn.frame.acc <<< 1 ||| bit.setWidth 18
    exec (.ootxAdd i bit) s = .next
      { s with
        sensors := s.sensors.set i { sn with frame :=
          if sn.frame.nbits ≠ 17 then { sn.frame with acc := acc, nbits := sn.frame.nbits + 1 }
          else if acc = 1 then { sn.frame with mode := .length, acc := 0, nbits := 0 }
          else { sn.frame with acc := acc &&& 0x1FFFF, nbits := 17 } }
        output := ⟨.nothing, []⟩ }

/-- 42_ootx_decoder.md R175, R178: in the word modes a bit is shifted in until there are 17; a last bit of 0 resets to
preamble hunting, and neither a byte nor the count changes. -/
def Obligations.WordBits : Prop :=
  ∀ (s : State) (i : Nat) (bit : BitVec 32) (sn : Sensor), s.inService = false → s.sensors[i]? = some sn →
    bit.toNat ≤ 1 → sn.frame.mode ≠ .preamble →
    (sn.frame.nbits < 16 → exec (.ootxAdd i bit) s = .next
      { s with
        sensors := s.sensors.set i { sn with frame :=
          { sn.frame with acc := sn.frame.acc <<< 1 ||| bit.setWidth 18, nbits := sn.frame.nbits + 1 } }
        output := ⟨.nothing, []⟩ }) ∧
    (sn.frame.nbits = 16 → bit = 0 → exec (.ootxAdd i bit) s = .next
      { s with
        sensors := s.sensors.set i { sn with frame := { sn.frame with mode := .preamble, acc := 0, nbits := 0 } }
        output := ⟨.nothing, [.protocolResync i]⟩ })

/-- 42_ootx_decoder.md R176, R177: a length word of at most 252 starts the data words, with the total made even and the
count at 0; a larger one only resets, with LengthOverflow. -/
def Obligations.LengthWord : Prop :=
  ∀ (s : State) (i : Nat) (sn : Sensor), s.inService = false → s.sensors[i]? = some sn →
    sn.frame.mode = .length → sn.frame.nbits = 16 →
    let total := (sn.frame.acc.setWidth 16).toNat + 4
    ((sn.frame.acc.setWidth 16).toNat ≤ 252 → exec (.ootxAdd i 1) s = .next
      { s with
        sensors := s.sensors.set i { sn with frame := { sn.frame with
          length := total + total % 2, padding := decide (total % 2 = 1), rxCount := 0, mode := .data,
          acc := 0, nbits := 0 } }
        output := ⟨.nothing, []⟩ }) ∧
    (252 < (sn.frame.acc.setWidth 16).toNat → exec (.ootxAdd i 1) s = .next
      { s with
        sensors := s.sensors.set i { sn with frame := { sn.frame with mode := .preamble, acc := 0, nbits := 0 } }
        output := ⟨.nothing, [.lengthOverflow i]⟩ })

/-- 42_ootx_decoder.md R179, R180: a data word stores its high byte at `rx_count` and its low byte after it, and no other
byte; the count grows by 2; when it reaches the length the frame is complete and the decoder hunts again. -/
def Obligations.DataWord : Prop :=
  ∀ (s : State) (i : Nat) (sn : Sensor), s.inService = false → s.sensors[i]? = some sn →
    sn.frame.mode = .data → sn.frame.nbits = 16 →
    ∃ ob, exec (.ootxAdd i 1) s = .next
      { s with
        sensors := s.sensors.set i { sn with frame :=
          if sn.frame.rxCount + 2 < sn.frame.length then
            { sn.frame with ob := ob, rxCount := sn.frame.rxCount + 2, acc := 0, nbits := 0 }
          else
            { sn.frame with ob := ob, rxCount := sn.frame.rxCount + 2, acc := 0, nbits := 0, mode := .preamble,
                            complete := true } }
        output := ⟨.nothing, []⟩ } ∧
      ob.get sn.frame.rxCount = some ((sn.frame.acc.setWidth 16).extractLsb' 8 8) ∧
      ob.get (sn.frame.rxCount + 1) = some ((sn.frame.acc.setWidth 16).extractLsb' 0 8) ∧
      ∀ j, j ≠ sn.frame.rxCount → j ≠ sn.frame.rxCount + 1 → ob.get j = sn.frame.ob.get j

/-- 42_ootx_decoder.md R182: OOTX.ACK clears `complete` and touches nothing else. -/
def Obligations.AckClearsComplete : Prop :=
  ∀ (s : State) (i : Nat) (sn : Sensor), s.inService = false → s.sensors[i]? = some sn →
    exec (.ootxAck i) s = .next
      { s with
        sensors := s.sensors.set i { sn with frame := { sn.frame with complete := false } }
        output := ⟨.nothing, []⟩ }

/-- 42_ootx_decoder.md R171: OOTX.RST writes the mode and the shift register and nothing else. -/
def Obligations.RearmWritesShiftRegister : Prop :=
  ∀ (s : State) (i : Nat) (sn : Sensor), s.inService = false → s.sensors[i]? = some sn →
    exec (.ootxRst i) s = .next
      { s with
        sensors := s.sensors.set i { sn with frame := { sn.frame with mode := .preamble, acc := 0, nbits := 0 } }
        output := ⟨.nothing, []⟩ }

/-- 42_ootx_decoder.md R185, first half: from any decoder that hunts for a preamble, whatever it has already received,
the bits of a frame with payload length at most 252 and as many words as R176 asks for complete the frame, with the
length, the padding and exactly the bytes of the words. -/
def Obligations.FrameRoundTrip : Prop :=
  ∀ (i : Nat) (f : FrameState) (payload : BitVec 16) (words : List (BitVec 16)), f.Ok → f.mode = .preamble →
    payload.toNat ≤ 252 → 2 * words.length = payload.toNat + 4 + (payload.toNat + 4) % 2 →
    let g := f.feed i (frameBits payload words)
    g.complete = true ∧ g.mode = .preamble ∧ g.acc = 0 ∧ g.nbits = 0 ∧ g.length = 2 * words.length ∧
      g.rxCount = g.length ∧ g.padding = decide ((payload.toNat + 4) % 2 = 1) ∧
      ∀ k, k < g.length → g.ob.get k = (wordBytes words)[k]?

/-- 42_ootx_decoder.md R178, R185, second half: a word whose sync bit is flipped, met at a word boundary, discards the
frame: the decoder hunts again, no byte and no count changes, `complete` is not set for it. -/
def Obligations.FlippedSyncDiscardsFrame : Prop :=
  ∀ (i : Nat) (f : FrameState) (word : BitVec 16), f.mode ≠ .preamble → f.nbits = 0 →
    f.feed i (wordBits word false) = { f with mode := .preamble, acc := 0, nbits := 0 }

/-- 42_ootx_decoder.md R174: from a fresh reset, while no match has occurred before, the mode changes to LENGTH at a bit
exactly when the last 18 bits received are seventeen zeros and a one. -/
def Obligations.RollingPreambleMatch : Prop :=
  ∀ (i : Nat) (f : FrameState) (bits : List Bool), f.mode = .preamble → f.acc = 0 → f.nbits = 0 →
    (∀ p, p <+: bits → p ≠ bits → ¬ preambleBits <:+ p) →
    ((f.feed i bits).mode = .length ↔ preambleBits <:+ bits)

/-- 42_ootx_decoder.md R183: after a completion the retained frame is intact for 34 more bits, and its bytes for 51. -/
def Obligations.RetainedFrameIntact : Prop :=
  ∀ (i : Nat) (f : FrameState) (bits : List Bool), f.mode = .preamble → f.acc = 0 → f.nbits = 0 →
    (bits.length ≤ 34 → (f.feed i bits).length = f.length ∧ (f.feed i bits).padding = f.padding ∧
      (f.feed i bits).rxCount = f.rxCount ∧ (f.feed i bits).complete = f.complete) ∧
    (bits.length ≤ 51 → (f.feed i bits).ob = f.ob)

/-! ## PositionSolver -/

/-- 43_position_solver.md R201: SOL.SETSRC writes the record of its source and its valid bit, and nothing else. -/
def Obligations.SetSourceWritesRecord : Prop :=
  ∀ (s : State) (rot : Mat3 FloatWord) (origin : Vec3 FloatWord), s.inService = false →
    exec (.solSetsrc 0 rot origin) s = .next { s with src0 := ⟨rot, origin, true⟩, output := ⟨.nothing, []⟩ } ∧
    exec (.solSetsrc 1 rot origin) s = .next { s with src1 := ⟨rot, origin, true⟩, output := ⟨.nothing, []⟩ }

/-- 43_position_solver.md R202: a slot out of range changes nothing; while the fourth slot is not fresh, the angle is
stored, its slot marked, and the answer is false. -/
def Obligations.UpdateStoresAngle : Prop :=
  ∀ (s : State) (i : Nat) (slot : BitVec 8) (angle : FloatWord) (sn : Sensor), s.inService = false →
    s.sensors[i]? = some sn →
    (4 ≤ slot.toNat → exec (.solUpdate i slot angle) s = .next { s with output := ⟨.updated false, []⟩ }) ∧
    (slot.toNat < 4 → sn.fix.fresh ||| (1#4 <<< slot.toNat) ≠ 0b1111#4 → exec (.solUpdate i slot angle) s = .next
      { s with
        sensors := s.sensors.set i { sn with fix := { sn.fix with
          angle :=
            ⟨if slot = 0 then angle else sn.fix.angle.slot0, if slot = 1 then angle else sn.fix.angle.slot1,
             if slot = 2 then angle else sn.fix.angle.slot2, if slot = 3 then angle else sn.fix.angle.slot3⟩
          fresh := sn.fix.fresh ||| (1#4 <<< slot.toNat) } }
        output := ⟨.updated false, []⟩ })

/-- 43_position_solver.md R202: the update that makes all four slots fresh performs SOL.COMPUTE on the stored angles,
clears the mask whether or not the solve succeeds, and returns its verdict. -/
def Obligations.FourthUpdateSolves : Prop :=
  ∀ (s : State) (i : Nat) (slot : BitVec 8) (angle : FloatWord) (sn : Sensor), s.inService = false →
    s.sensors[i]? = some sn → slot.toNat < 4 → sn.fix.fresh ||| (1#4 <<< slot.toNat) = 0b1111#4 →
    let stored : State := { s with sensors := s.sensors.set i { sn with fix := { sn.fix with
      angle := angleSet sn.fix.angle slot.toNat angle, fresh := 0b1111#4 } } }
    ∃ u ok, exec (.solCompute i) stored = .next u ∧ u.output.result = .computed ok ∧
      exec (.solUpdate i slot angle) s = .next
        { u with
          sensors := u.sensors.set i { u.sensor i with fix := { (u.sensor i).fix with fresh := 0 } }
          output := ⟨.updated ok, u.output.conditions⟩ }

/-- 43_position_solver.md R212: from a clear mask, the first three updates return false and attempt no solve, whatever
their slots and angles. -/
def Obligations.FreshnessGating : Prop :=
  ∀ (s : State) (i : Nat) (sn : Sensor) (k1 k2 k3 : BitVec 8) (a1 a2 a3 : FloatWord), s.inService = false →
    s.sensors[i]? = some sn → sn.fix.fresh = 0 →
    ∃ t1 t2 t3, exec (.solUpdate i k1 a1) s = .next t1 ∧ exec (.solUpdate i k2 a2) t1 = .next t2 ∧
      exec (.solUpdate i k3 a3) t2 = .next t3 ∧
      t1.output = ⟨.updated false, []⟩ ∧ t2.output = ⟨.updated false, []⟩ ∧ t3.output = ⟨.updated false, []⟩ ∧
      (t3.sensor i).fix.pos = sn.fix.pos ∧ (t3.sensor i).fix.dist = sn.fix.dist

/-- 43_position_solver.md R203: without both light sources supplied the solve fails with GeometryFailure and writes
nothing. That this test comes first even where an angle or a record is not finite (R213) is the model's choice,
log 15. -/
def Obligations.ComputeNeedsBothSources : Prop :=
  ∀ (s : State) (i : Nat), s.inService = false → i < s.sensors.length →
    (s.src0.valid = false ∨ s.src1.valid = false) →
    exec (.solCompute i) s = .next { s with output := ⟨.computed false, [.geometryFailure i]⟩ }

/-- 43_position_solver.md R203 to R205, R207 to R209: source `k` gives the local ray of slots `2k` and `2k + 1`, rotated
by its own matrix, through its own origin. With both records supplied and every value finite, a near-singular system
writes nothing and raises GeometryFailure; else the position is the midpoint of the closest points and the distance
their separation, and nothing else is written. Rounding operation by operation is the model's choice, log 12. -/
def Obligations.ComputeSolvesOrFails : Prop :=
  ∀ (s : State) (i : Nat) (sn : Sensor) (r0 r1 d0 d1 : Vec3 FloatWord), s.inService = false →
    s.sensors[i]? = some sn →
    let A := arithOf s.config.numerics
    let ray (θ1 θ2 : FloatWord) : Option (Vec3 FloatWord) :=
      match s.config.rayLocal with
      | .planeNormals => planeNormalRay A θ1 θ2
      | .platform id axis1 axis2 firstTimesSecond =>
        (Config.platformNormal id 1 θ1).bind fun n1 => (Config.platformNormal id 2 θ2).bind fun n2 =>
          if firstTimesSecond then rayOfNormals A (inPlane A axis1 n1.1 n1.2) (inPlane A axis2 n2.1 n2.2)
          else rayOfNormals A (inPlane A axis2 n2.1 n2.2) (inPlane A axis1 n1.1 n1.2)
    let near := closestApproach A s.config.solveEps s.src0.origin d0 s.src1.origin d1
    s.src0.valid = true → s.src1.valid = true → sourceFinite A s.src0 = true → sourceFinite A s.src1 = true →
    anglesFinite A sn.fix.angle = true →
    ray sn.fix.angle.slot0 sn.fix.angle.slot1 = some r0 → ray sn.fix.angle.slot2 sn.fix.angle.slot3 = some r1 →
    rotate A s.src0.rot r0 = some d0 → rotate A s.src1.rot r1 = some d1 →
    (near = some none →
      exec (.solCompute i) s = .next { s with output := ⟨.computed false, [.geometryFailure i]⟩ }) ∧
    (∀ q0 q1 pos dist, near = some (some (q0, q1)) → midpointOf A q0 q1 = some pos → separation A q0 q1 = some dist →
      exec (.solCompute i) s = .next
        { s with
          sensors := s.sensors.set i { sn with fix := { sn.fix with pos := pos, dist := dist } }
          output := ⟨.computed true, []⟩ })

/-- 43_position_solver.md R203, R213: SOL.COMPUTE completes for every sensor outside a service, non-finite values
included; it writes at most the position and the distance of its sensor, and raises GeometryFailure exactly when it
answers false. That a solve with a non-finite value leaves everything else is the model's choice, log 15. -/
def Obligations.ComputeFrame : Prop :=
  ∀ (s : State) (i : Nat) (sn : Sensor), s.inService = false → s.sensors[i]? = some sn →
    ∃ pos dist draws ok, exec (.solCompute i) s = .next
      { s with
        sensors := s.sensors.set i { sn with fix := { sn.fix with pos := pos, dist := dist } }
        draws := draws
        output := ⟨.computed ok, if ok then [] else [.geometryFailure i]⟩ }

/-- 43_position_solver.md R211: the solve has no memory: two sensors with the same four angles obtain the same verdict
and, on success, the same position and distance, whenever the solve meets finite values only. -/
def Obligations.ComputeHasNoMemory : Prop :=
  ∀ (s t u : State) (i j : Nat), exec (.solCompute i) s = .next t → exec (.solCompute j) s = .next u →
    (s.sensor i).fix.angle = (s.sensor j).fix.angle →
    solve s.config s.src0 s.src1 (s.sensor i).fix.angle ≠ .unspecified →
    t.output.result = u.output.result ∧
    (t.output.result = .computed true →
      (t.sensor i).fix.pos = (u.sensor j).fix.pos ∧ (t.sensor i).fix.dist = (u.sensor j).fix.dist)

/-- 43_position_solver.md R208, R207: two lines of the same direction never solve, in the nominal numerics with
`SOLVE_EPS > 0`: the system is near-singular or a value is not finite. The numerics are the model's choice, log 12. -/
def Obligations.ParallelLinesNeverSolve : Prop :=
  ∀ (c : Config) (p0 p1 d : Vec3 FloatWord), c.numerics = .binary32 → c.wellFormed = true →
    closestApproach (arithOf c.numerics) c.solveEps p0 d p1 d = some none ∨
    closestApproach (arithOf c.numerics) c.solveEps p0 d p1 d = none

/-- 43_position_solver.md R205 to R207, R209: the geometry of a solve over the rationals. With `denom = a c − b b` below
a positive epsilon the closed form is near-singular; with `denom` at least epsilon it gives a point on each line, the
segment between them is orthogonal to both, and no two points of the lines are nearer. The midpoint is taken component
by component, the separation is the square root of the squared distance, and a rotation is the matrix times the column
vector. -/
def Obligations.ClosestApproachMinimises : Prop :=
  ∀ (pi : Rat) (sqrt sin cos : Rat → Option Rat),
    let A := exactArith pi sqrt sin cos
    let inner (u v : Vec3 Rat) : Rat := u.x * v.x + u.y * v.y + u.z * v.z
    let along (p d : Vec3 Rat) (t : Rat) : Vec3 Rat := ⟨p.x + t * d.x, p.y + t * d.y, p.z + t * d.z⟩
    let dist2 (u v : Vec3 Rat) : Rat := (v.x - u.x) ^ 2 + (v.y - u.y) ^ 2 + (v.z - u.z) ^ 2
    (∀ (eps : Rat) (p0 d0 p1 d1 : Vec3 Rat), 0 < eps →
      let denom := inner d0 d0 * inner d1 d1 - inner d0 d1 * inner d0 d1
      (denom < eps → closestApproach A eps p0 d0 p1 d1 = some none) ∧
      (eps ≤ denom → ∃ q0 q1, closestApproach A eps p0 d0 p1 d1 = some (some (q0, q1)) ∧
        (∃ t0, q0 = along p0 d0 t0) ∧ (∃ t1, q1 = along p1 d1 t1) ∧
        (q1.x - q0.x) * d0.x + (q1.y - q0.y) * d0.y + (q1.z - q0.z) * d0.z = 0 ∧
        (q1.x - q0.x) * d1.x + (q1.y - q0.y) * d1.y + (q1.z - q0.z) * d1.z = 0 ∧
        ∀ t0 t1, dist2 q0 q1 ≤ dist2 (along p0 d0 t0) (along p1 d1 t1))) ∧
    (∀ q0 q1 : Vec3 Rat, midpointOf A q0 q1 = some ⟨(q0.x + q1.x) / 2, (q0.y + q1.y) / 2, (q0.z + q1.z) / 2⟩ ∧
      separation A q0 q1 = sqrt (dist2 q0 q1)) ∧
    (∀ (m : Mat3 Rat) (r : Vec3 Rat), rotate A m r = some
      ⟨m.row0.x * r.x + m.row0.y * r.y + m.row0.z * r.z, m.row1.x * r.x + m.row1.y * r.y + m.row1.z * r.z,
       m.row2.x * r.x + m.row2.y * r.y + m.row2.z * r.z⟩)

/-- 43_position_solver.md R204: over the rationals with an exact square root, the ray of any two normals, whatever
construction gives them, is the unit vector along their cross product; and the default `ray_local` is the one along
`(−sin θ1 cos θ2, cos θ1 sin θ2, −cos θ1 cos θ2)`. -/
def Obligations.DefaultRayIsUnit : Prop :=
  ∀ (pi : Rat) (sqrt sin cos : Rat → Option Rat), (∀ x y, sqrt x = some y → 0 ≤ y ∧ y * y = x) →
    let A := exactArith pi sqrt sin cos
    (∀ n m r : Vec3 Rat, rayOfNormals A n m = some r → r.x ^ 2 + r.y ^ 2 + r.z ^ 2 = 1 ∧
      ∃ k, 0 < k ∧ r.x * k = n.y * m.z - n.z * m.y ∧ r.y * k = n.z * m.x - n.x * m.z ∧
        r.z * k = n.x * m.y - n.y * m.x) ∧
    (∀ (θ1 θ2 s1 c1 s2 c2 : Rat) (r : Vec3 Rat), sin θ1 = some s1 → cos θ1 = some c1 → sin θ2 = some s2 →
      cos θ2 = some c2 → planeNormalRay A θ1 θ2 = some r → r.x ^ 2 + r.y ^ 2 + r.z ^ 2 = 1 ∧
      ∃ k, 0 < k ∧ r.x * k = -(s1 * c2) ∧ r.y * k = c1 * s2 ∧ r.z * k = -(c1 * c2))
end

