-- ==== Sys2Proof/Laws/Bank.lean ====
section
/-! SUPPORT. The laws of the internal memories: a read after a write, and the canonical form. -/

namespace Sys2Proof.Machine

variable {w : Nat}

@[simp] theorem Bank.get_nil (i : Nat) : Bank.get ([] : Bank w) i = none := rfl

theorem Bank.get_set_self (b : Bank w) (i : Nat) (v : BitVec w) : (b.set i v).get i = some v := by
  induction b with
  | nil => simp [Bank.set, Bank.get]
  | cons p rest ih => simp only [Bank.set]; split <;> [skip; split] <;> simp_all [Bank.get]

theorem Bank.get_set_ne (b : Bank w) {i j : Nat} (v : BitVec w) (h : j ≠ i) : (b.set i v).get j = b.get j := by
  induction b with
  | nil => simp [Bank.set, Bank.get, h]
  | cons p rest ih => simp only [Bank.set]; split <;> [skip; split] <;> simp_all [Bank.get]

theorem Bank.mem_set (b : Bank w) (i : Nat) (v : BitVec w) {p : Nat × BitVec w} (h : p ∈ b.set i v) :
    p = (i, v) ∨ p ∈ b := by
  induction b with
  | nil => exact .inl (List.mem_singleton.mp h)
  | cons q rest ih =>
    simp only [Bank.set] at h
    split at h
    · exact List.mem_cons.mp h
    split at h
    · rcases List.mem_cons.mp h with rfl | h
      · exact .inl rfl
      · exact .inr (List.mem_cons_of_mem _ h)
    · rcases List.mem_cons.mp h with rfl | h
      · exact .inr List.mem_cons_self
      · exact (ih h).imp id (List.mem_cons_of_mem _)

theorem Memory.wf_nil (size : Nat) : Memory.wf (w := w) size [] := ⟨List.Pairwise.nil, by simp⟩

theorem Bank.pairwise_set {b : Bank w} (i : Nat) (v : BitVec w) (h : b.Pairwise fun p q => p.1 < q.1) :
    (b.set i v).Pairwise fun p q => p.1 < q.1 := by
  induction b with
  | nil => simp [Bank.set]
  | cons q rest ih =>
    have hq := fun p (hp : p ∈ rest) => List.rel_of_pairwise_cons h hp
    simp only [Bank.set]
    split
    · rename_i hlt
      refine List.pairwise_cons.mpr ⟨fun p hp => ?_, h⟩
      rcases List.mem_cons.mp hp with rfl | hp
      · exact hlt
      · exact Nat.lt_trans hlt (hq p hp)
    split
    · rename_i heq
      exact List.pairwise_cons.mpr ⟨fun p hp => by simpa [heq] using hq p hp, h.of_cons⟩
    · refine List.pairwise_cons.mpr ⟨fun p hp => ?_, ih h.of_cons⟩
      rcases Bank.mem_set rest i v hp with rfl | hp
      · simp only; omega
      · exact hq p hp

/-- Every write below the size keeps the canonical form. -/
theorem Memory.wf_set {size : Nat} {b : Bank w} {i : Nat} (v : BitVec w) (h : Memory.wf size b) (hi : i < size) :
    Memory.wf size (b.set i v) := by
  refine ⟨Bank.pairwise_set i v h.1, fun p hp => ?_⟩
  rcases Bank.mem_set b i v hp with rfl | hp
  · exact hi
  · exact h.2 p hp

/-- Indices modulo 2^IDX_W: the gap is zero exactly when the indices are equal. -/
theorem idxSub_lt (w a b : Nat) : idxSub w a b < 2 ^ w := Nat.mod_lt _ (Nat.two_pow_pos w)

theorem idxAdd_lt (w a b : Nat) : idxAdd w a b < 2 ^ w := Nat.mod_lt _ (Nat.two_pow_pos w)

theorem idxSub_self (w : Nat) {a : Nat} (h : a < 2 ^ w) : idxSub w a a = 0 := by
  rw [idxSub, Nat.mod_eq_of_lt h, show a + (2 ^ w - a) = 2 ^ w by omega, Nat.mod_self]

/-- The modular difference of two indices in range, by cases. -/
theorem idxSub_eq {w a b : Nat} (ha : a < 2 ^ w) (hb : b < 2 ^ w) :
    idxSub w a b = if b ≤ a then a - b else a + 2 ^ w - b := by
  rw [idxSub, Nat.mod_eq_of_lt hb]
  split
  · rw [show a + (2 ^ w - b) = (a - b) + 2 ^ w by omega, Nat.add_mod_right, Nat.mod_eq_of_lt (by omega)]
  · rw [show a + (2 ^ w - b) = a + 2 ^ w - b by omega, Nat.mod_eq_of_lt (by omega)]

/-- The modular sum of an index in range and a step below the modulus, by cases. -/
theorem idxAdd_eq {w a b : Nat} (ha : a < 2 ^ w) (hb : b < 2 ^ w) :
    idxAdd w a b = if a + b < 2 ^ w then a + b else a + b - 2 ^ w := by
  rw [idxAdd]
  split
  · exact Nat.mod_eq_of_lt ‹_›
  · rw [Nat.mod_eq_sub_mod (by omega), Nat.mod_eq_of_lt (by omega)]

/-- Slots do not see the wrap of the indices (30_encoding.md R86). -/
theorem slotOf_mod {w : Nat} (hw : 6 ≤ w) (a : Nat) : slotOf (a % 2 ^ w) = slotOf a := by
  have : (64 : Nat) ∣ 2 ^ w := by
    simpa using Nat.pow_dvd_pow 2 hw
  exact Nat.mod_mod_of_dvd a this

theorem slotOf_lt (i : Nat) : slotOf i < 64 := Nat.mod_lt _ (by decide)

end Sys2Proof.Machine
end

