-- ==== Sys2Proof/Laws/State.lean ====
section
/-! SUPPORT. One lemma per field per update of State, and reading a sensor back. -/
namespace Sys2Proof.Machine
variable (s : State)
/-! ## clearOutput -/
@[simp] theorem State.clearOutput_ovfCounter : (s.clearOutput).ovfCounter = s.ovfCounter := rfl
@[simp] theorem State.clearOutput_ovfBusy : (s.clearOutput).ovfBusy = s.ovfBusy := rfl
@[simp] theorem State.clearOutput_channels : (s.clearOutput).channels = s.channels := rfl
@[simp] theorem State.clearOutput_sensors : (s.clearOutput).sensors = s.sensors := rfl
@[simp] theorem State.clearOutput_src0 : (s.clearOutput).src0 = s.src0 := rfl
@[simp] theorem State.clearOutput_src1 : (s.clearOutput).src1 = s.src1 := rfl
@[simp] theorem State.clearOutput_config : (s.clearOutput).config = s.config := rfl
@[simp] theorem State.clearOutput_inbox : (s.clearOutput).inbox = s.inbox := rfl
@[simp] theorem State.clearOutput_interleave : (s.clearOutput).interleave = s.interleave := rfl
@[simp] theorem State.clearOutput_inService : (s.clearOutput).inService = s.inService := rfl
@[simp] theorem State.clearOutput_draws : (s.clearOutput).draws = s.draws := rfl
@[simp] theorem State.clearOutput_output : (s.clearOutput).output = ⟨.nothing, []⟩ := rfl
/-! ## raise -/
@[simp] theorem State.raise_ovfCounter (c : Condition) : (s.raise c).ovfCounter = s.ovfCounter := rfl
@[simp] theorem State.raise_ovfBusy (c : Condition) : (s.raise c).ovfBusy = s.ovfBusy := rfl
@[simp] theorem State.raise_channels (c : Condition) : (s.raise c).channels = s.channels := rfl
@[simp] theorem State.raise_sensors (c : Condition) : (s.raise c).sensors = s.sensors := rfl
@[simp] theorem State.raise_src0 (c : Condition) : (s.raise c).src0 = s.src0 := rfl
@[simp] theorem State.raise_src1 (c : Condition) : (s.raise c).src1 = s.src1 := rfl
@[simp] theorem State.raise_config (c : Condition) : (s.raise c).config = s.config := rfl
@[simp] theorem State.raise_inbox (c : Condition) : (s.raise c).inbox = s.inbox := rfl
@[simp] theorem State.raise_interleave (c : Condition) : (s.raise c).interleave = s.interleave := rfl
@[simp] theorem State.raise_inService (c : Condition) : (s.raise c).inService = s.inService := rfl
@[simp] theorem State.raise_draws (c : Condition) : (s.raise c).draws = s.draws := rfl
@[simp] theorem State.raise_output (c : Condition) : (s.raise c).output = { s.output with conditions := s.output.conditions ++ [c] } := rfl
/-! ## returns -/
@[simp] theorem State.returns_ovfCounter (r : Result) : (s.returns r).ovfCounter = s.ovfCounter := rfl
@[simp] theorem State.returns_ovfBusy (r : Result) : (s.returns r).ovfBusy = s.ovfBusy := rfl
@[simp] theorem State.returns_channels (r : Result) : (s.returns r).channels = s.channels := rfl
@[simp] theorem State.returns_sensors (r : Result) : (s.returns r).sensors = s.sensors := rfl
@[simp] theorem State.returns_src0 (r : Result) : (s.returns r).src0 = s.src0 := rfl
@[simp] theorem State.returns_src1 (r : Result) : (s.returns r).src1 = s.src1 := rfl
@[simp] theorem State.returns_config (r : Result) : (s.returns r).config = s.config := rfl
@[simp] theorem State.returns_inbox (r : Result) : (s.returns r).inbox = s.inbox := rfl
@[simp] theorem State.returns_interleave (r : Result) : (s.returns r).interleave = s.interleave := rfl
@[simp] theorem State.returns_inService (r : Result) : (s.returns r).inService = s.inService := rfl
@[simp] theorem State.returns_draws (r : Result) : (s.returns r).draws = s.draws := rfl
@[simp] theorem State.returns_output (r : Result) : (s.returns r).output = { s.output with result := r } := rfl
/-! ## setChannel -/
@[simp] theorem State.setChannel_ovfCounter (ch : Nat) (c : Channel) : (s.setChannel ch c).ovfCounter = s.ovfCounter := rfl
@[simp] theorem State.setChannel_ovfBusy (ch : Nat) (c : Channel) : (s.setChannel ch c).ovfBusy = s.ovfBusy := rfl
@[simp] theorem State.setChannel_channels (ch : Nat) (c : Channel) : (s.setChannel ch c).channels = s.channels.set ch c := rfl
@[simp] theorem State.setChannel_sensors (ch : Nat) (c : Channel) : (s.setChannel ch c).sensors = s.sensors := rfl
@[simp] theorem State.setChannel_src0 (ch : Nat) (c : Channel) : (s.setChannel ch c).src0 = s.src0 := rfl
@[simp] theorem State.setChannel_src1 (ch : Nat) (c : Channel) : (s.setChannel ch c).src1 = s.src1 := rfl
@[simp] theorem State.setChannel_config (ch : Nat) (c : Channel) : (s.setChannel ch c).config = s.config := rfl
@[simp] theorem State.setChannel_inbox (ch : Nat) (c : Channel) : (s.setChannel ch c).inbox = s.inbox := rfl
@[simp] theorem State.setChannel_interleave (ch : Nat) (c : Channel) : (s.setChannel ch c).interleave = s.interleave := rfl
@[simp] theorem State.setChannel_inService (ch : Nat) (c : Channel) : (s.setChannel ch c).inService = s.inService := rfl
@[simp] theorem State.setChannel_draws (ch : Nat) (c : Channel) : (s.setChannel ch c).draws = s.draws := rfl
@[simp] theorem State.setChannel_output (ch : Nat) (c : Channel) : (s.setChannel ch c).output = s.output := rfl
/-! ## setSensor -/
@[simp] theorem State.setSensor_ovfCounter (i : Nat) (sn : Sensor) : (s.setSensor i sn).ovfCounter = s.ovfCounter := rfl
@[simp] theorem State.setSensor_ovfBusy (i : Nat) (sn : Sensor) : (s.setSensor i sn).ovfBusy = s.ovfBusy := rfl
@[simp] theorem State.setSensor_channels (i : Nat) (sn : Sensor) : (s.setSensor i sn).channels = s.channels := rfl
@[simp] theorem State.setSensor_sensors (i : Nat) (sn : Sensor) : (s.setSensor i sn).sensors = s.sensors.set i sn := rfl
@[simp] theorem State.setSensor_src0 (i : Nat) (sn : Sensor) : (s.setSensor i sn).src0 = s.src0 := rfl
@[simp] theorem State.setSensor_src1 (i : Nat) (sn : Sensor) : (s.setSensor i sn).src1 = s.src1 := rfl
@[simp] theorem State.setSensor_config (i : Nat) (sn : Sensor) : (s.setSensor i sn).config = s.config := rfl
@[simp] theorem State.setSensor_inbox (i : Nat) (sn : Sensor) : (s.setSensor i sn).inbox = s.inbox := rfl
@[simp] theorem State.setSensor_interleave (i : Nat) (sn : Sensor) : (s.setSensor i sn).interleave = s.interleave := rfl
@[simp] theorem State.setSensor_inService (i : Nat) (sn : Sensor) : (s.setSensor i sn).inService = s.inService := rfl
@[simp] theorem State.setSensor_draws (i : Nat) (sn : Sensor) : (s.setSensor i sn).draws = s.draws := rfl
@[simp] theorem State.setSensor_output (i : Nat) (sn : Sensor) : (s.setSensor i sn).output = s.output := rfl
/-! ## setDecode -/
@[simp] theorem State.setDecode_ovfCounter (i : Nat) (d : DecodeState) : (s.setDecode i d).ovfCounter = s.ovfCounter := rfl
@[simp] theorem State.setDecode_ovfBusy (i : Nat) (d : DecodeState) : (s.setDecode i d).ovfBusy = s.ovfBusy := rfl
@[simp] theorem State.setDecode_channels (i : Nat) (d : DecodeState) : (s.setDecode i d).channels = s.channels := rfl
@[simp] theorem State.setDecode_sensors (i : Nat) (d : DecodeState) : (s.setDecode i d).sensors = s.sensors.set i { s.sensor i with decode := d } := rfl
@[simp] theorem State.setDecode_src0 (i : Nat) (d : DecodeState) : (s.setDecode i d).src0 = s.src0 := rfl
@[simp] theorem State.setDecode_src1 (i : Nat) (d : DecodeState) : (s.setDecode i d).src1 = s.src1 := rfl
@[simp] theorem State.setDecode_config (i : Nat) (d : DecodeState) : (s.setDecode i d).config = s.config := rfl
@[simp] theorem State.setDecode_inbox (i : Nat) (d : DecodeState) : (s.setDecode i d).inbox = s.inbox := rfl
@[simp] theorem State.setDecode_interleave (i : Nat) (d : DecodeState) : (s.setDecode i d).interleave = s.interleave := rfl
@[simp] theorem State.setDecode_inService (i : Nat) (d : DecodeState) : (s.setDecode i d).inService = s.inService := rfl
@[simp] theorem State.setDecode_draws (i : Nat) (d : DecodeState) : (s.setDecode i d).draws = s.draws := rfl
@[simp] theorem State.setDecode_output (i : Nat) (d : DecodeState) : (s.setDecode i d).output = s.output := rfl
/-! ## setFrame -/
@[simp] theorem State.setFrame_ovfCounter (i : Nat) (f : FrameState) : (s.setFrame i f).ovfCounter = s.ovfCounter := rfl
@[simp] theorem State.setFrame_ovfBusy (i : Nat) (f : FrameState) : (s.setFrame i f).ovfBusy = s.ovfBusy := rfl
@[simp] theorem State.setFrame_channels (i : Nat) (f : FrameState) : (s.setFrame i f).channels = s.channels := rfl
@[simp] theorem State.setFrame_sensors (i : Nat) (f : FrameState) : (s.setFrame i f).sensors = s.sensors.set i { s.sensor i with frame := f } := rfl
@[simp] theorem State.setFrame_src0 (i : Nat) (f : FrameState) : (s.setFrame i f).src0 = s.src0 := rfl
@[simp] theorem State.setFrame_src1 (i : Nat) (f : FrameState) : (s.setFrame i f).src1 = s.src1 := rfl
@[simp] theorem State.setFrame_config (i : Nat) (f : FrameState) : (s.setFrame i f).config = s.config := rfl
@[simp] theorem State.setFrame_inbox (i : Nat) (f : FrameState) : (s.setFrame i f).inbox = s.inbox := rfl
@[simp] theorem State.setFrame_interleave (i : Nat) (f : FrameState) : (s.setFrame i f).interleave = s.interleave := rfl
@[simp] theorem State.setFrame_inService (i : Nat) (f : FrameState) : (s.setFrame i f).inService = s.inService := rfl
@[simp] theorem State.setFrame_draws (i : Nat) (f : FrameState) : (s.setFrame i f).draws = s.draws := rfl
@[simp] theorem State.setFrame_output (i : Nat) (f : FrameState) : (s.setFrame i f).output = s.output := rfl
/-! ## setFix -/
@[simp] theorem State.setFix_ovfCounter (i : Nat) (f : SensorFix) : (s.setFix i f).ovfCounter = s.ovfCounter := rfl
@[simp] theorem State.setFix_ovfBusy (i : Nat) (f : SensorFix) : (s.setFix i f).ovfBusy = s.ovfBusy := rfl
@[simp] theorem State.setFix_channels (i : Nat) (f : SensorFix) : (s.setFix i f).channels = s.channels := rfl
@[simp] theorem State.setFix_sensors (i : Nat) (f : SensorFix) : (s.setFix i f).sensors = s.sensors.set i { s.sensor i with fix := f } := rfl
@[simp] theorem State.setFix_src0 (i : Nat) (f : SensorFix) : (s.setFix i f).src0 = s.src0 := rfl
@[simp] theorem State.setFix_src1 (i : Nat) (f : SensorFix) : (s.setFix i f).src1 = s.src1 := rfl
@[simp] theorem State.setFix_config (i : Nat) (f : SensorFix) : (s.setFix i f).config = s.config := rfl
@[simp] theorem State.setFix_inbox (i : Nat) (f : SensorFix) : (s.setFix i f).inbox = s.inbox := rfl
@[simp] theorem State.setFix_interleave (i : Nat) (f : SensorFix) : (s.setFix i f).interleave = s.interleave := rfl
@[simp] theorem State.setFix_inService (i : Nat) (f : SensorFix) : (s.setFix i f).inService = s.inService := rfl
@[simp] theorem State.setFix_draws (i : Nat) (f : SensorFix) : (s.setFix i f).draws = s.draws := rfl
@[simp] theorem State.setFix_output (i : Nat) (f : SensorFix) : (s.setFix i f).output = s.output := rfl
/-! ## endService -/
@[simp] theorem State.endService_ovfCounter : (s.endService).ovfCounter = s.ovfCounter := rfl
@[simp] theorem State.endService_ovfBusy : (s.endService).ovfBusy = false := rfl
@[simp] theorem State.endService_channels : (s.endService).channels = s.channels := rfl
@[simp] theorem State.endService_sensors : (s.endService).sensors = s.sensors := rfl
@[simp] theorem State.endService_src0 : (s.endService).src0 = s.src0 := rfl
@[simp] theorem State.endService_src1 : (s.endService).src1 = s.src1 := rfl
@[simp] theorem State.endService_config : (s.endService).config = s.config := rfl
@[simp] theorem State.endService_inbox : (s.endService).inbox = s.inbox := rfl
@[simp] theorem State.endService_interleave : (s.endService).interleave = s.interleave := rfl
@[simp] theorem State.endService_inService : (s.endService).inService = false := rfl
@[simp] theorem State.endService_draws : (s.endService).draws = s.draws := rfl
@[simp] theorem State.endService_output : (s.endService).output = s.output := rfl
/-! ## overflow -/
@[simp] theorem State.overflow_ovfCounter : (s.overflow).ovfCounter = s.ovfCounter + 1 := rfl
@[simp] theorem State.overflow_ovfBusy : (s.overflow).ovfBusy = true := rfl
@[simp] theorem State.overflow_channels : (s.overflow).channels = s.channels := rfl
@[simp] theorem State.overflow_sensors : (s.overflow).sensors = s.sensors := rfl
@[simp] theorem State.overflow_src0 : (s.overflow).src0 = s.src0 := rfl
@[simp] theorem State.overflow_src1 : (s.overflow).src1 = s.src1 := rfl
@[simp] theorem State.overflow_config : (s.overflow).config = s.config := rfl
@[simp] theorem State.overflow_inbox : (s.overflow).inbox = s.inbox := rfl
@[simp] theorem State.overflow_interleave : (s.overflow).interleave = s.interleave := rfl
@[simp] theorem State.overflow_inService : (s.overflow).inService = true := rfl
@[simp] theorem State.overflow_draws : (s.overflow).draws = s.draws := rfl
@[simp] theorem State.overflow_output : (s.overflow).output = s.output := rfl
/-! ## capture -/
@[simp] theorem State.capture_ovfCounter (ch : Nat) (c : Channel) (low : BitVec 16) : (s.capture ch c low).ovfCounter = s.ovfCounter := rfl
@[simp] theorem State.capture_ovfBusy (ch : Nat) (c : Channel) (low : BitVec 16) : (s.capture ch c low).ovfBusy = s.ovfBusy := rfl
@[simp] theorem State.capture_channels (ch : Nat) (c : Channel) (low : BitVec 16) : (s.capture ch c low).channels = s.channels.set ch (c.append s.config.idxW (s.stamp low)) := rfl
@[simp] theorem State.capture_sensors (ch : Nat) (c : Channel) (low : BitVec 16) : (s.capture ch c low).sensors = s.sensors := rfl
@[simp] theorem State.capture_src0 (ch : Nat) (c : Channel) (low : BitVec 16) : (s.capture ch c low).src0 = s.src0 := rfl
@[simp] theorem State.capture_src1 (ch : Nat) (c : Channel) (low : BitVec 16) : (s.capture ch c low).src1 = s.src1 := rfl
@[simp] theorem State.capture_config (ch : Nat) (c : Channel) (low : BitVec 16) : (s.capture ch c low).config = s.config := rfl
@[simp] theorem State.capture_inbox (ch : Nat) (c : Channel) (low : BitVec 16) : (s.capture ch c low).inbox = s.inbox := rfl
@[simp] theorem State.capture_interleave (ch : Nat) (c : Channel) (low : BitVec 16) : (s.capture ch c low).interleave = s.interleave := rfl
@[simp] theorem State.capture_inService (ch : Nat) (c : Channel) (low : BitVec 16) : (s.capture ch c low).inService = true := rfl
@[simp] theorem State.capture_draws (ch : Nat) (c : Channel) (low : BitVec 16) : (s.capture ch c low).draws = s.draws := rfl
@[simp] theorem State.capture_output (ch : Nat) (c : Channel) (low : BitVec 16) : (s.capture ch c low).output = s.output := rfl
/-! ## setSource -/
@[simp] theorem State.setSource_ovfCounter (k : BitVec 1) (l : LightSource) : (s.setSource k l).ovfCounter = s.ovfCounter := by
  unfold State.setSource; split <;> rfl
@[simp] theorem State.setSource_ovfBusy (k : BitVec 1) (l : LightSource) : (s.setSource k l).ovfBusy = s.ovfBusy := by
  unfold State.setSource; split <;> rfl
@[simp] theorem State.setSource_channels (k : BitVec 1) (l : LightSource) : (s.setSource k l).channels = s.channels := by
  unfold State.setSource; split <;> rfl
@[simp] theorem State.setSource_sensors (k : BitVec 1) (l : LightSource) : (s.setSource k l).sensors = s.sensors := by
  unfold State.setSource; split <;> rfl
@[simp] theorem State.setSource_config (k : BitVec 1) (l : LightSource) : (s.setSource k l).config = s.config := by
  unfold State.setSource; split <;> rfl
@[simp] theorem State.setSource_inbox (k : BitVec 1) (l : LightSource) : (s.setSource k l).inbox = s.inbox := by
  unfold State.setSource; split <;> rfl
@[simp] theorem State.setSource_interleave (k : BitVec 1) (l : LightSource) : (s.setSource k l).interleave = s.interleave := by
  unfold State.setSource; split <;> rfl
@[simp] theorem State.setSource_inService (k : BitVec 1) (l : LightSource) : (s.setSource k l).inService = s.inService := by
  unfold State.setSource; split <;> rfl
@[simp] theorem State.setSource_draws (k : BitVec 1) (l : LightSource) : (s.setSource k l).draws = s.draws := by
  unfold State.setSource; split <;> rfl
@[simp] theorem State.setSource_output (k : BitVec 1) (l : LightSource) : (s.setSource k l).output = s.output := by
  unfold State.setSource; split <;> rfl

theorem State.setSource_zero (l : LightSource) : s.setSource 0 l = { s with src0 := l } := rfl

theorem State.setSource_one (l : LightSource) : s.setSource 1 l = { s with src1 := l } := rfl

/-! ## Replacing an entry of a list -/

/-- Writing back the entry that is there changes nothing. -/
theorem set_same {α : Type} {l : List α} {n : Nat} {a : α} (h : l[n]? = some a) : l.set n a = l := by
  obtain ⟨hn, rfl⟩ := List.getElem?_eq_some_iff.mp h
  exact List.set_getElem_self hn

/-- A view that an update does not change is unchanged for the whole list. -/
theorem map_set_same {α β : Type} (f : α → β) {l : List α} {n : Nat} {a b : α} (h : l[n]? = some a) (hf : f b = f a) :
    (l.set n b).map f = l.map f := by
  rw [List.map_set, hf]
  exact set_same (by simp [h])

/-! ## Sensors -/

theorem State.sensor_of_getElem? {i : Nat} {sn : Sensor} (h : s.sensors[i]? = some sn) : s.sensor i = sn := by
  simp [State.sensor, List.getD, h]

theorem State.getElem?_sensor {i : Nat} (h : i < s.sensors.length) : s.sensors[i]? = some (s.sensor i) := by
  simp [State.sensor, List.getD, h]

theorem State.sensor_mem {i : Nat} (h : i < s.sensors.length) : s.sensor i ∈ s.sensors :=
  List.mem_of_getElem? (s.getElem?_sensor h)

@[simp] theorem State.sensor_raise (i : Nat) (c : Condition) : (s.raise c).sensor i = s.sensor i := rfl

@[simp] theorem State.sensor_returns (i : Nat) (r : Result) : (s.returns r).sensor i = s.sensor i := rfl

@[simp] theorem State.sensor_clearOutput (i : Nat) : s.clearOutput.sensor i = s.sensor i := rfl

@[simp] theorem State.sensor_setChannel (i ch : Nat) (c : Channel) : (s.setChannel ch c).sensor i = s.sensor i := rfl

theorem State.sensor_setSensor_self {i : Nat} (sn : Sensor) (h : i < s.sensors.length) :
    (s.setSensor i sn).sensor i = sn := by
  simp [State.sensor, State.setSensor, List.getD, h]

theorem State.sensor_setSensor_ne {i j : Nat} (sn : Sensor) (h : i ≠ j) :
    (s.setSensor i sn).sensor j = s.sensor j := by
  simp [State.sensor, State.setSensor, List.getD, List.getElem?_set_ne h]

theorem State.sensor_setDecode_self {i : Nat} (d : DecodeState) (h : i < s.sensors.length) :
    (s.setDecode i d).sensor i = { s.sensor i with decode := d } :=
  s.sensor_setSensor_self _ h

theorem State.sensor_setFrame_self {i : Nat} (f : FrameState) (h : i < s.sensors.length) :
    (s.setFrame i f).sensor i = { s.sensor i with frame := f } :=
  s.sensor_setSensor_self _ h

theorem State.sensor_setFix_self {i : Nat} (f : SensorFix) (h : i < s.sensors.length) :
    (s.setFix i f).sensor i = { s.sensor i with fix := f } :=
  s.sensor_setSensor_self _ h

end Sys2Proof.Machine
end

