-- ==== Sys2Proof/Laws/Operands.lean ====
section
/-! SUPPORT. When an operation form answers a next state, and what it then runs. -/

namespace Sys2Proof.Machine

variable {s t : State}

theorem asPoll_eq (body : State → Answer) (h : s.inService = false) : asPoll s body = body s.clearOutput := by
  simp [asPoll, h]

theorem asPoll_refused (body : State → Answer) (h : s.inService = true) :
    asPoll s body = .refused .pollInsideService := by
  simp [asPoll, h]

theorem asPoll_next {body : State → Answer} :
    asPoll s body = .next t ↔ s.inService = false ∧ body s.clearOutput = .next t := by
  cases h : s.inService <;> simp [asPoll, h]

theorem onChannel_eq {ch : Nat} {c : Channel} (body : Channel → Answer) (h : s.channels[ch]? = some c) :
    onChannel s ch body = body c := by
  simp [onChannel, h]

theorem onChannel_next {ch : Nat} {body : Channel → Answer} :
    onChannel s ch body = .next t ↔ ∃ c, s.channels[ch]? = some c ∧ body c = .next t := by
  cases h : s.channels[ch]? <;> simp [onChannel, h]

theorem onPin_next {pin : Nat} {body : Nat → Channel → Answer} :
    onPin s pin body = .next t ↔
      ∃ ch c, s.config.pinToChannel[pin]? = some ch ∧ s.channels[ch]? = some c ∧ body ch c = .next t := by
  cases h : s.config.pinToChannel[pin]? <;> simp [onPin, h, onChannel_next]

theorem onSensor_eq {i : Nat} (body : Answer) (h : i < s.sensors.length) : onSensor s i body = body := by
  simp [onSensor, h]

theorem onSensor_next {i : Nat} {body : Answer} :
    onSensor s i body = .next t ↔ i < s.sensors.length ∧ body = .next t := by
  by_cases h : i < s.sensors.length <;> simp [onSensor, h]

/-- An operation on sensor `i` of agent POLL, in a state where it is allowed. -/
theorem asPoll_onSensor {i : Nat} (f : State → State) (h : s.inService = false) (hi : i < s.sensors.length) :
    asPoll s (fun s => onSensor s i (.next (f s))) = .next (f s.clearOutput) := by
  rw [asPoll_eq _ h, onSensor_eq]
  exact hi

end Sys2Proof.Machine
end

