-- ==== Sys2Proof/Laws/Capture.lean ====
section
/-! SUPPORT. What each capture operation can do, said once. -/

namespace Sys2Proof.Machine

theorem Channel.append_unclaimed {w : Nat} {c : Channel} (ts : Timestamp) (h : c.claimed = false) :
    c.append w ts = c := by
  simp [Channel.append, h]

theorem Channel.append_claimed {w : Nat} {c : Channel} (ts : Timestamp) (h : c.claimed = true) :
    c.append w ts = { c with rb := c.rb.set (slotOf c.writeIndex) ts, writeIndex := idxAdd w c.writeIndex 1 } := by
  simp [Channel.append, h]

theorem Channel.append_readIndex (w : Nat) (c : Channel) (ts : Timestamp) : (c.append w ts).readIndex = c.readIndex := by
  unfold Channel.append; split <;> rfl

theorem Channel.append_polarity (w : Nat) (c : Channel) (ts : Timestamp) : (c.append w ts).polarity = c.polarity := by
  unfold Channel.append; split <;> rfl

theorem Channel.append_claim (w : Nat) (c : Channel) (ts : Timestamp) : (c.append w ts).claimed = c.claimed := by
  unfold Channel.append; split <;> rfl

theorem Channel.consume_eq_none {w : Nat} {c : Channel} : c.consume w = none ↔ c.writeIndex = c.readIndex := by
  unfold Channel.consume; split <;> simp_all

/-- What a read that delivers does: without loss it takes the oldest sample, with loss the recovered one; the read
index moves past it. -/
theorem Channel.consume_cases {w r : Nat} {loss : Bool} {c c' : Channel} (h : c.consume w = some (r, loss, c')) :
    c.writeIndex ≠ c.readIndex ∧ c' = { c with readIndex := idxAdd w r 1 } ∧
    (c.gap w ≤ 64 ∧ loss = false ∧ r = c.readIndex ∨ 64 < c.gap w ∧ loss = true ∧ r = c.recovered w) := by
  unfold Channel.consume at h
  split at h
  · cases h
  · rename_i hne
    simp only [Option.some.injEq, Prod.mk.injEq] at h
    obtain ⟨rfl, rfl, rfl⟩ := h
    refine ⟨hne, rfl, ?_⟩
    by_cases hg : 64 < c.gap w
    · exact .inr ⟨hg, by simp [hg]⟩
    · exact .inl ⟨by omega, by simp [hg]⟩

/-- What reading a channel can do to the state. -/
theorem State.readChannel_cases (s : State) (ch : Nat) (c : Channel) :
    (c.writeIndex = c.readIndex ∧ s.readChannel ch c = (.noData, s)) ∨
    ∃ r loss c', c.consume s.config.idxW = some (r, loss, c') ∧
      let ts := (c.rb.get (slotOf r)).getD (Config.anyTimestamp s.draws)
      let t := { s.setChannel ch c' with
        draws := if (c.rb.get (slotOf r)).isSome then s.draws else s.draws + 1 }
      (loss = false ∧ s.readChannel ch c = (.sample ts, t) ∨
        loss = true ∧ s.readChannel ch c = (.sampleWithLoss ts, t.raise (.sampleLoss ch))) := by
  cases hc : c.consume s.config.idxW with
  | none => exact .inl ⟨Channel.consume_eq_none.mp hc, by simp [State.readChannel, hc]⟩
  | some p =>
    obtain ⟨r, loss, c'⟩ := p
    refine .inr ⟨r, loss, c', rfl, ?_⟩
    cases hs : c.rb.get (slotOf r) <;> cases loss <;> simp [State.readChannel, hc, hs] <;> rfl

/-- Reading a channel changes nothing, or that channel's read index, the draws and the output. -/
theorem State.readChannel_frame (s : State) (ch : Nat) (c : Channel) :
    (s.readChannel ch c).2 = s ∨ ∃ n d o,
      (s.readChannel ch c).2 =
        { s with channels := s.channels.set ch { c with readIndex := n }, draws := d, output := o } := by
  rcases s.readChannel_cases ch c with ⟨-, h⟩ | ⟨r, loss, c', hc, h⟩
  · exact .inl (by rw [h])
  · obtain ⟨-, rfl, -⟩ := Channel.consume_cases hc
    rcases h with ⟨-, h⟩ | ⟨-, h⟩
    · exact .inr ⟨_, _, _, by rw [h]; rfl⟩
    · exact .inr ⟨_, _, _, by rw [h]; rfl⟩

/-! ## Services -/

theorem State.runCaptures_cons {s : State} {ch : Nat} {low : BitVec 16} {rest : List (Nat × BitVec 16)} {c : Channel}
    (h : s.channels[ch]? = some c) : s.runCaptures ((ch, low) :: rest) = (s.capture ch c low).runCaptures rest := by
  simp [State.runCaptures, h]

/-- An invariant that ECB.CAP keeps is kept by the captures of a service. -/
theorem State.runCaptures_induct {P : State → Prop}
    (hcap : ∀ s ch c low, P s → s.channels[ch]? = some c → P (s.capture ch c low)) :
    ∀ (l : List (Nat × BitVec 16)) (s t : State), P s → s.runCaptures l = some t → P t
  | [], s, t, hs, h => by cases h; exact hs
  | (ch, low) :: rest, s, t, hs, h => by
    cases hc : s.channels[ch]? with
    | none => simp [State.runCaptures, hc] at h
    | some c =>
      rw [State.runCaptures_cons hc] at h
      exact State.runCaptures_induct hcap rest _ t (hcap s ch c low hs hc) h

/-- An invariant that ECB.TOV, ECB.CAP and ECB.IRET keep is kept by whole services. -/
theorem State.runServices_induct {P : State → Prop} (htov : ∀ s, P s → P s.overflow)
    (hcap : ∀ s ch c low, P s → s.channels[ch]? = some c → P (s.capture ch c low))
    (hret : ∀ s, P s → P s.endService) :
    ∀ (l : List Service) (s t : State), P s → s.runServices l = some t → P t
  | [], s, t, hs, h => by cases h; exact hs
  | v :: rest, s, t, hs, h => by
    simp only [State.runServices, Option.bind_eq_some_iff, State.runService, Option.map_eq_some_iff] at h
    obtain ⟨u, ⟨u', hu', rfl⟩, h⟩ := h
    refine State.runServices_induct htov hcap hret rest _ t (hret _ ?_) h
    refine State.runCaptures_induct hcap v.captures _ u' ?_ hu'
    split
    · exact htov s hs
    · exact hs

end Sys2Proof.Machine
end

