-- ==== Sys2Proof/Laws/Ootx.lean ====
section
/-! SUPPORT. What OOTX.ADD can do to a decoder, said once. -/

namespace Sys2Proof.Machine

@[simp] theorem FrameState.rearm_ob (f : FrameState) : f.rearm.ob = f.ob := rfl
@[simp] theorem FrameState.rearm_rxCount (f : FrameState) : f.rearm.rxCount = f.rxCount := rfl
@[simp] theorem FrameState.rearm_length (f : FrameState) : f.rearm.length = f.length := rfl
@[simp] theorem FrameState.rearm_padding (f : FrameState) : f.rearm.padding = f.padding := rfl
@[simp] theorem FrameState.rearm_complete (f : FrameState) : f.rearm.complete = f.complete := rfl
@[simp] theorem FrameState.rearm_mode (f : FrameState) : f.rearm.mode = .preamble := rfl
@[simp] theorem FrameState.rearm_acc (f : FrameState) : f.rearm.acc = 0 := rfl
@[simp] theorem FrameState.rearm_nbits (f : FrameState) : f.rearm.nbits = 0 := rfl

@[simp] theorem FrameState.shift_ob (f : FrameState) (b : Bool) : (f.shift b).ob = f.ob := rfl
@[simp] theorem FrameState.shift_rxCount (f : FrameState) (b : Bool) : (f.shift b).rxCount = f.rxCount := rfl
@[simp] theorem FrameState.shift_length (f : FrameState) (b : Bool) : (f.shift b).length = f.length := rfl
@[simp] theorem FrameState.shift_padding (f : FrameState) (b : Bool) : (f.shift b).padding = f.padding := rfl
@[simp] theorem FrameState.shift_complete (f : FrameState) (b : Bool) : (f.shift b).complete = f.complete := rfl
@[simp] theorem FrameState.shift_mode (f : FrameState) (b : Bool) : (f.shift b).mode = f.mode := rfl
@[simp] theorem FrameState.shift_nbits (f : FrameState) (b : Bool) : (f.shift b).nbits = f.nbits + 1 := rfl

/-- The word in the shift register when its last bit arrives. -/
def FrameState.received (f : FrameState) (b : Bool) : BitVec 16 := (f.shift b).acc.extractLsb' 1 16

/-- Every way one OOTX.ADD can end. -/
theorem FrameState.add_cases (i : Nat) (f : FrameState) (bit : BitVec 32) :
    let b := bit.getLsbD 0
    (1 < bit.toNat ∧ f.add i bit = (f.rearm, [.protocolResync i])) ∨
    (bit.toNat ≤ 1 ∧ f.mode = .preamble ∧ f.add i bit = (f.preambleStep b, [])) ∨
    (bit.toNat ≤ 1 ∧ f.mode ≠ .preamble ∧ f.nbits < 16 ∧ f.add i bit = (f.shift b, [])) ∨
    (bit.toNat ≤ 1 ∧ f.mode ≠ .preamble ∧ 16 ≤ f.nbits ∧ (f.shift b).acc.getLsbD 0 = false ∧
      f.add i bit = (f.rearm, [.protocolResync i])) ∨
    (bit.toNat ≤ 1 ∧ f.mode = .length ∧ 16 ≤ f.nbits ∧ (f.shift b).acc.getLsbD 0 = true ∧
      256 < frameTotal (f.received b) ∧ f.add i bit = (f.rearm, [.lengthOverflow i])) ∨
    (bit.toNat ≤ 1 ∧ f.mode = .length ∧ 16 ≤ f.nbits ∧ (f.shift b).acc.getLsbD 0 = true ∧
      frameTotal (f.received b) ≤ 256 ∧
      f.add i bit = ({ f with
        length := frameTotal (f.received b), padding := framePad (f.received b) == 1, rxCount := 0, mode := .data,
        acc := 0, nbits := 0 }, [])) ∨
    (bit.toNat ≤ 1 ∧ f.mode = .data ∧ 16 ≤ f.nbits ∧ (f.shift b).acc.getLsbD 0 = true ∧
      f.add i bit = ({ f with acc := 0, nbits := 0 : FrameState }.dataWord (f.received b), [])) := by
  intro b
  by_cases hb : 1 < bit.toNat
  · exact .inl ⟨hb, by simp [FrameState.add, hb]⟩
  right
  have hb' : bit.toNat ≤ 1 := by omega
  by_cases hm : f.mode = .preamble
  · exact .inl ⟨hb', hm, by simp [FrameState.add, hb, hm, b]⟩
  right
  have hadd : f.add i bit = f.wordStep i b := by simp [FrameState.add, hb, hm, b]
  by_cases hn : f.nbits < 16
  · exact .inl ⟨hb', hm, hn, by rw [hadd, FrameState.wordStep, if_pos (by simp; omega)]⟩
  right
  have hn' : ¬ (f.shift b).nbits < 17 := by simp; omega
  cases hs : (f.shift b).acc.getLsbD 0
  · refine .inl ⟨hb', hm, by omega, rfl, ?_⟩
    rw [hadd, FrameState.wordStep, if_neg hn', if_pos hs]
    rfl
  right
  have hstep : f.wordStep i b =
      if (f.shift b).mode = .length then ({ f.shift b with acc := 0, nbits := 0 } : FrameState).lengthWord i (f.received b)
      else (({ f.shift b with acc := 0, nbits := 0 } : FrameState).dataWord (f.received b), []) := by
    rw [FrameState.wordStep, if_neg hn', if_neg (by simp [hs])]
    rfl
  rw [hadd, hstep]
  by_cases hl : f.mode = .length
  · rw [if_pos (by simpa using hl), FrameState.lengthWord]
    by_cases ht : 256 < frameTotal (f.received b)
    · exact .inl ⟨hb', hl, by omega, rfl, ht, by rw [if_pos ht]; rfl⟩
    · exact .inr (.inl ⟨hb', hl, by omega, rfl, by omega, by rw [if_neg ht]; rfl⟩)
  · right; right
    rw [if_neg (by simpa using hl)]
    refine ⟨hb', ?_, by omega, rfl, rfl⟩
    cases h : f.mode <;> simp_all

theorem State.ootxAdd_eq (s : State) (i : Nat) (bit : BitVec 32) :
    s.ootxAdd i bit =
      { s with
        sensors := s.sensors.set i { s.sensor i with frame := ((s.sensor i).frame.add i bit).1 }
        output := { s.output with
          conditions := s.output.conditions ++ ((s.sensor i).frame.add i bit).2 } } := by
  have h : ∀ (l : List Condition) (t : State),
      l.foldl State.raise t = { t with output := { t.output with conditions := t.output.conditions ++ l } } := by
    intro l
    induction l with
    | nil => intro t; simp
    | cons c l ih => intro t; simp [ih, State.raise]
  rw [State.ootxAdd, h]
  rfl

end Sys2Proof.Machine
end

