-- ==== Sys2Proof/Laws/Solver.lean ====
section
/-! SUPPORT. What a solve and an angle update can do, said once. -/

namespace Sys2Proof.Machine

/-- Every way SOL.COMPUTE can end: failure writes nothing, success and the unspecified case write position and
distance, the latter with free values. -/
theorem State.compute_cases (s : State) (i : Nat) :
    let fix := (s.sensor i).fix
    let outcome := solve s.config s.src0 s.src1 fix.angle
    (outcome = .failed ∧ s.compute i = (false, s.raise (.geometryFailure i))) ∨
    (∃ pos dist, outcome = .solved pos dist ∧
      s.compute i = (true, s.setFix i { fix with pos := pos, dist := dist })) ∨
    (outcome = .unspecified ∧ ∃ pos dist ok,
      s.compute i = (ok,
        { s with
          sensors := s.sensors.set i { s.sensor i with fix := { fix with pos := pos, dist := dist } }
          draws := s.draws + 1
          output := { s.output with
            conditions := s.output.conditions ++ if ok then [] else [.geometryFailure i] } })) := by
  intro fix outcome
  cases h : outcome with
  | failed => exact .inl ⟨rfl, by simp only [State.compute]; rw [show solve s.config s.src0 s.src1 (s.sensor i).fix.angle = .failed from h]⟩
  | solved pos dist =>
    exact .inr (.inl ⟨pos, dist, rfl, by
      simp only [State.compute]
      rw [show solve s.config s.src0 s.src1 (s.sensor i).fix.angle = .solved pos dist from h]⟩)
  | unspecified =>
    refine .inr (.inr ⟨rfl, Config.anyPosition s.draws, Config.anyDistance s.draws, Config.anyVerdict s.draws, ?_⟩)
    simp only [State.compute]
    rw [show solve s.config s.src0 s.src1 (s.sensor i).fix.angle = .unspecified from h]
    cases Config.anyVerdict s.draws <;> simp [State.raise, State.setFix, State.setSensor, fix]

/-- Whatever a solve does, it writes at most the position and the distance of its sensor, and it raises GeometryFailure
exactly when it answers false. -/
theorem State.compute_frame (s : State) (i : Nat) (hi : i < s.sensors.length) :
    ∃ pos dist d, (s.compute i).2 =
      { s with
        sensors := s.sensors.set i { s.sensor i with fix := { (s.sensor i).fix with pos := pos, dist := dist } }
        draws := d
        output := { s.output with
          conditions := s.output.conditions ++ if (s.compute i).1 then [] else [.geometryFailure i] } } := by
  have hset : s.sensors.set i (s.sensor i) = s.sensors := by
    have h := s.getElem?_sensor hi
    rw [List.getElem?_eq_some_iff] at h
    rw [← h.2]
    exact List.set_getElem_self hi
  rcases s.compute_cases i with ⟨-, h⟩ | ⟨pos, dist, -, h⟩ | ⟨-, pos, dist, ok, h⟩
  · refine ⟨(s.sensor i).fix.pos, (s.sensor i).fix.dist, s.draws, ?_⟩
    rw [h]
    simp [State.raise, hset]
  · refine ⟨pos, dist, s.draws, ?_⟩
    rw [h]
    simp [State.setFix, State.setSensor]
  · exact ⟨pos, dist, s.draws + 1, by rw [h]⟩

/-- SOL.UPDATE by cases: a slot out of range does nothing; short of four fresh slots the angle is stored; the fourth
solves and clears the mask. -/
theorem State.update_cases (s : State) (i slot : Nat) (angle : FloatWord) :
    (4 ≤ slot ∧ s.update i slot angle = (false, s)) ∨
    (slot < 4 ∧ allFresh ((s.storeAngle i slot angle).sensor i).fix.fresh = false ∧
      s.update i slot angle = (false, s.storeAngle i slot angle)) ∨
    (slot < 4 ∧ allFresh ((s.storeAngle i slot angle).sensor i).fix.fresh = true ∧
      s.update i slot angle =
        (((s.storeAngle i slot angle).compute i).1, ((s.storeAngle i slot angle).compute i).2.clearFresh i)) := by
  by_cases h : 4 ≤ slot
  · exact .inl ⟨h, by simp [State.update, h]⟩
  · right
    cases hf : allFresh ((s.storeAngle i slot angle).sensor i).fix.fresh
    · exact .inl ⟨by omega, rfl, by simp [State.update, h, hf]⟩
    · exact .inr ⟨by omega, rfl, by simp [State.update, h, hf]⟩

end Sys2Proof.Machine
end

