-- ==== Sys2Proof/Laws/Classifier.lean ====
section
/-! SUPPORT. What each step of PCL.PULSE and PCL.POLL can do, said once. -/

namespace Sys2Proof.Machine

theorem State.setSensor_setSensor (s : State) (i : Nat) (a b : Sensor) :
    (s.setSensor i a).setSensor i b = s.setSensor i b := by
  simp [State.setSensor, List.set_set]

theorem State.setDecode_setDecode (s : State) (i : Nat) (d e : DecodeState) (hi : i < s.sensors.length) :
    (s.setDecode i d).setDecode i e = s.setDecode i e := by
  rw [State.setDecode, s.sensor_setDecode_self d hi, State.setDecode, State.setSensor_setSensor]
  rfl

/-- SOL.UPDATE writes at most the SensorFix of its sensor, the draws and the conditions. -/
theorem State.update_frame (s : State) (i slot : Nat) (angle : FloatWord) (hi : i < s.sensors.length) :
    ∃ fix d conds, (s.update i slot angle).2 =
      { s with
        sensors := s.sensors.set i { s.sensor i with fix := fix }
        draws := d
        output := { s.output with conditions := s.output.conditions ++ conds } } := by
  have hself : s.sensors.set i (s.sensor i) = s.sensors := by
    have h := s.getElem?_sensor hi
    rw [List.getElem?_eq_some_iff] at h
    rw [← h.2]
    exact List.set_getElem_self hi
  rcases s.update_cases i slot angle with ⟨-, h⟩ | ⟨-, -, h⟩ | ⟨-, -, h⟩
  · exact ⟨(s.sensor i).fix, s.draws, [], by rw [h]; simp [hself]⟩
  · exact ⟨_, s.draws, [], by rw [h, State.storeAngle, List.append_nil]; rfl⟩
  · have hi' : i < (s.storeAngle i slot angle).sensors.length := by simpa [State.storeAngle] using hi
    obtain ⟨pos, dist, d, hc⟩ := (s.storeAngle i slot angle).compute_frame i hi'
    refine ⟨{ ((s.storeAngle i slot angle).sensor i).fix with pos := pos, dist := dist, fresh := 0 }, d,
      if ((s.storeAngle i slot angle).compute i).1 then [] else [.geometryFailure i], ?_⟩
    have hsn : ∀ (u : State) (sn : Sensor), u.sensors = (s.storeAngle i slot angle).sensors.set i sn →
        u.sensor i = sn := by
      intro u sn hu
      simp [State.sensor, List.getD, hu, List.getElem?_set_self hi']
    rw [h]
    show ((s.storeAngle i slot angle).compute i).2.clearFresh i = _
    rw [State.clearFresh, hsn _ _ (by rw [hc]), hc]
    simp [State.setFix, State.setSensor, State.storeAngle, State.sensor, hi]

/-- The sync step by cases (41_pulse_classifier.md R147 to R149). -/
theorem State.syncStep_cases (s : State) (i : Nat) (obs : Observation) :
    let d := (s.sensor i).decode
    (syncMatch s.config obs.length = none ∧ s.syncStep i obs = (.unmatched obs, s.raise (.protocolResync i))) ∨
    ∃ bits, syncMatch s.config obs.length = some bits ∧
      ((bits.skip = true ∧ s.syncStep i obs = (.sync obs bits false, s.setDecode i d.afterSkip)) ∨
       (bits.skip = false ∧ d.gotSkip = false ∧
         s.syncStep i obs = (.sync obs bits false, s.setDecode i (d.afterNotSkip bits.rotor))) ∨
       (bits.skip = false ∧ d.gotSkip = true ∧
         s.syncStep i obs = (.sync obs bits true,
           (s.setDecode i (d.afterNotSkip bits.rotor)).ootxAdd i ((BitVec.ofBool bits.data).setWidth 32)))) := by
  intro d
  cases hm : syncMatch s.config obs.length with
  | none => exact .inl ⟨rfl, by simp [State.syncStep, hm]⟩
  | some bits =>
    refine .inr ⟨bits, rfl, ?_⟩
    cases hs : bits.skip
    · cases hg : (s.sensor i).decode.gotSkip
      · exact .inr (.inl ⟨rfl, rfl, by simp [State.syncStep, hm, hs, hg, d]⟩)
      · exact .inr (.inr ⟨rfl, rfl, by simp [State.syncStep, hm, hs, hg, d]⟩)
    · exact .inl ⟨rfl, by simp [State.syncStep, hm, hs, d]⟩

/-- The sweep step by cases (41_pulse_classifier.md R144, R145). -/
theorem State.sweepStep_cases (s : State) (i : Nat) (obs : Observation) :
    let d := (s.sensor i).decode
    let delta := pulseMidpoint obs.rise obs.length - d.zeroTime
    (sweepValid s.config delta d = false ∧ s.sweepStep i obs = (.sweepInvalid obs, s.setDecode i d.afterSweep)) ∨
    (sweepValid s.config delta d = true ∧ ∃ angle n,
      (∀ a, sweepAngle s.config delta = some a → angle = a ∧ n = s.draws) ∧
      let u := ({ s with draws := n } : State).update i (slotIndex d) angle
      s.sweepStep i obs = (.sweepValid obs (slotIndex d) angle u.1, u.2.setDecode i d.afterSweep)) := by
  intro d delta
  cases hv : sweepValid s.config delta d
  · refine .inl ⟨rfl, ?_⟩
    rw [State.sweepStep]
    exact if_neg (by rw [show sweepValid s.config _ _ = false from hv]; decide)
  · refine .inr ⟨rfl, ?_⟩
    have hstep : s.sweepStep i obs =
        let value := sweepAngle s.config delta
        let t := if value.isSome then s else { s with draws := s.draws + 1 }
        let u := t.update i (slotIndex d) (value.getD (Config.anyAngle s.draws))
        (.sweepValid obs (slotIndex d) (value.getD (Config.anyAngle s.draws)) u.1, u.2.setDecode i d.afterSweep) := by
      rw [State.sweepStep]
      exact if_pos hv
    cases ha : sweepAngle s.config delta with
    | none => exact ⟨Config.anyAngle s.draws, s.draws + 1, by simp, by rw [hstep, ha]; rfl⟩
    | some a => exact ⟨a, s.draws, by simp, by rw [hstep, ha]; rfl⟩

/-- The state after phase F: the read, and `last_fall` when it delivered (41_pulse_classifier.md R141). -/
def State.afterFalling (i : Nat) (x : ReadResult × State) : State :=
  match x.1.timestamp? with
  | some ts => x.2.setDecode i { (x.2.sensor i).decode with lastFall := ts }
  | none => x.2

/-- The state after phase R: the read, and PCL.PULSE when it delivered (41_pulse_classifier.md R140). -/
def State.afterRising (i : Nat) (falling : ReadResult) (x : ReadResult × State) : State :=
  match x.1.timestamp? with
  | some ts => (x.2.pulse i ts).2.returns (.polled (falling.lost || x.1.lost) (some (x.2.pulse i ts).1))
  | none => x.2.returns (.polled (falling.lost || x.1.lost) none)

theorem State.pollFalling_eq (s : State) (i : Nat) (w : Wiring) :
    s.pollFalling i w = s.channels[w.fallCh]?.map fun c =>
      ((s.readChannel w.fallCh c).1, State.afterFalling i (s.readChannel w.fallCh c)) := by
  unfold State.pollFalling
  congr 1
  funext c
  dsimp only
  split <;> rename_i h <;> simp [State.afterFalling, h]

theorem State.pollRising_eq (s : State) (i : Nat) (w : Wiring) (falling : ReadResult) :
    s.pollRising i w falling = s.channels[w.riseCh]?.map fun c =>
      State.afterRising i falling (s.readChannel w.riseCh c) := by
  unfold State.pollRising
  congr 1

/-- The whole of PCL.POLL: phase F, the services of the interleave point, phase R. -/
theorem State.poll_eq_some {s t : State} {i : Nat} {w : Wiring} : s.poll i w = some t ↔
    ∃ cf v cr, s.channels[w.fallCh]? = some cf ∧
      (State.afterFalling i (s.readChannel w.fallCh cf)).interleavePoint = some v ∧
      v.channels[w.riseCh]? = some cr ∧
      State.afterRising i (s.readChannel w.fallCh cf).1 (v.readChannel w.riseCh cr) = t := by
  simp only [State.poll, State.pollFalling_eq, State.pollRising_eq, Option.bind_eq_bind, Option.bind_eq_some_iff,
    Option.map_eq_some_iff]
  constructor
  · rintro ⟨_, ⟨cf, hcf, rfl⟩, v, hv, cr, hcr, rfl⟩
    exact ⟨cf, v, cr, hcf, hv, hcr, rfl⟩
  · rintro ⟨cf, v, cr, hcf, hv, hcr, rfl⟩
    exact ⟨_, ⟨cf, hcf, rfl⟩, v, hv, cr, hcr, rfl⟩

end Sys2Proof.Machine
end

