-- ==== Sys2Proof/Laws/Decode.lean ====
section
/-! SUPPORT. An operand word gives back the operand it was made from, and a decoded operand is its word. -/

namespace Sys2Proof

theorem indexWord_toNat {n : Nat} (h : n < 2 ^ 64) : (indexWord n).toNat = n := by
  rw [indexWord, BitVec.toNat_ofNat, Nat.mod_eq_of_lt h]

theorem indexWord_of_toNat (o : OperandWord) : indexWord o.toNat = o := by
  simp [indexWord]

theorem operandBits_setWidth {w : Nat} (hw : w ≤ 64) (x : BitVec w) : operandBits w (x.setWidth 64) = .ok x := by
  have hlt : x.toNat < 2 ^ 64 := Nat.lt_of_lt_of_le x.isLt (Nat.pow_le_pow_right (by decide) hw)
  have hn : (x.setWidth 64).toNat = x.toNat := by
    rw [BitVec.toNat_setWidth, Nat.mod_eq_of_lt hlt]
  rw [operandBits, if_pos (by rw [hn]; exact x.isLt)]
  congr 1
  apply BitVec.eq_of_toNat_eq
  rw [BitVec.toNat_setWidth, hn, Nat.mod_eq_of_lt x.isLt]

theorem setWidth_of_operandBits {w : Nat} {o : OperandWord} {x : BitVec w} (h : operandBits w o = .ok x) :
    x.setWidth 64 = o := by
  unfold operandBits at h
  split at h
  · rename_i hlt
    cases h
    apply BitVec.eq_of_toNat_eq
    rw [BitVec.toNat_setWidth, BitVec.toNat_setWidth, Nat.mod_eq_of_lt hlt, Nat.mod_eq_of_lt o.isLt]
  · cases h

theorem operandPolarity_polarityWord (p : Polarity) : operandPolarity (polarityWord p) = .ok p := by
  cases p <;> rfl

theorem polarityWord_of_operandPolarity {o : OperandWord} {p : Polarity} (h : operandPolarity o = .ok p) :
    polarityWord p = o := by
  unfold operandPolarity at h
  split at h
  · cases h; simp_all [polarityWord]
  split at h
  · cases h; simp_all [polarityWord]
  · cases h

end Sys2Proof
end

