-- ==== Sys2Proof/Laws/Dispatch.lean ====
section
/-! SUPPORT. One equation per arm of exec, and for each meaning when it answers a next state and which. -/

namespace Sys2Proof.Machine

variable {s t : State}

/-! ## The arms -/

@[simp] theorem exec_reset (s : State) : exec .reset s = execReset s := rfl
@[simp] theorem exec_ecbBegin (pin : Nat) (pol : Polarity) (s : State) :
    exec (.ecbBegin pin pol) s = execEcbBegin pin pol s := rfl
@[simp] theorem exec_ecbTov (s : State) : exec .ecbTov s = execEcbTov s := rfl
@[simp] theorem exec_ecbCap (ch : Nat) (low : BitVec 16) (s : State) :
    exec (.ecbCap ch low) s = execEcbCap ch low s := rfl
@[simp] theorem exec_ecbIret (s : State) : exec .ecbIret s = execEcbIret s := rfl
@[simp] theorem exec_ecbRead (ch : Nat) (s : State) : exec (.ecbRead ch) s = execEcbRead ch s := rfl
@[simp] theorem exec_pclPoll (i : Nat) (s : State) : exec (.pclPoll i) s = execPclPoll i s := rfl
@[simp] theorem exec_pclPulse (i : Nat) (rise : Timestamp) (s : State) :
    exec (.pclPulse i rise) s = execPclPulse i rise s := rfl
@[simp] theorem exec_ootxAdd (i : Nat) (bit : BitVec 32) (s : State) :
    exec (.ootxAdd i bit) s = execOotxAdd i bit s := rfl
@[simp] theorem exec_ootxAck (i : Nat) (s : State) : exec (.ootxAck i) s = execOotxAck i s := rfl
@[simp] theorem exec_ootxRst (i : Nat) (s : State) : exec (.ootxRst i) s = execOotxRst i s := rfl
@[simp] theorem exec_solSetsrc (k : BitVec 1) (rot : Mat3 FloatWord) (origin : Vec3 FloatWord) (s : State) :
    exec (.solSetsrc k rot origin) s = execSolSetsrc k rot origin s := rfl
@[simp] theorem exec_solUpdate (i : Nat) (slot : BitVec 8) (angle : FloatWord) (s : State) :
    exec (.solUpdate i slot angle) s = execSolUpdate i slot angle s := rfl
@[simp] theorem exec_solCompute (i : Nat) (s : State) : exec (.solCompute i) s = execSolCompute i s := rfl

/-! ## When a meaning answers a next state, and which -/

theorem execReset_next : execReset s = .next t ↔ s.inService = false ∧
    { State.afterReset s.config (Config.anyPolarity s.draws) (Config.anySensorFloat s.draws)
        (Config.anySourceFloat s.draws) with
      inbox := s.inbox, interleave := s.interleave, draws := s.draws + 1 } = t := by
  rw [execReset, asPoll_next, Host.Outcome.next.injEq]
  rfl

theorem execEcbBegin_next {pin : Nat} {pol : Polarity} : execEcbBegin pin pol s = .next t ↔
    s.inService = false ∧ ∃ ch c, s.config.pinToChannel[pin]? = some ch ∧ s.channels[ch]? = some c ∧
      (if c.claimed then (s.clearOutput.raise (.configurationConflict ch)).returns (.begun false)
        else (s.clearOutput.setChannel ch
          { c with claimed := true, polarity := pol, writeIndex := 0, readIndex := 0 }).returns (.begun true)) = t := by
  rw [execEcbBegin, asPoll_next, onPin_next]
  refine and_congr_right fun _ => exists_congr fun ch => exists_congr fun c =>
    and_congr_right fun _ => and_congr_right fun _ => ?_
  split <;> rw [Host.Outcome.next.injEq]

theorem execEcbTov_next : execEcbTov s = .next t ↔ s.inService = false ∧ s.clearOutput.overflow = t := by
  cases h : s.inService <;> simp [execEcbTov, h]

theorem execEcbCap_next {ch : Nat} {low : BitVec 16} : execEcbCap ch low s = .next t ↔
    ∃ c, s.channels[ch]? = some c ∧ s.clearOutput.capture ch c low = t := by
  simp only [execEcbCap, onChannel_next, Host.Outcome.next.injEq]

theorem execEcbIret_next : execEcbIret s = .next t ↔ s.clearOutput.endService = t := by
  rw [execEcbIret, Host.Outcome.next.injEq]

theorem execEcbRead_next {ch : Nat} : execEcbRead ch s = .next t ↔
    s.inService = false ∧ ∃ c, s.channels[ch]? = some c ∧
      (s.clearOutput.readChannel ch c).2.returns (.read (s.clearOutput.readChannel ch c).1) = t := by
  simp only [execEcbRead, asPoll_next, onChannel_next, Host.Outcome.next.injEq]
  rfl

theorem execPclPulse_next {i : Nat} {rise : Timestamp} : execPclPulse i rise s = .next t ↔
    s.inService = false ∧ i < s.sensors.length ∧
      (s.clearOutput.pulse i rise).2.returns (.pulse (s.clearOutput.pulse i rise).1) = t := by
  simp only [execPclPulse, asPoll_next, onSensor_next, Host.Outcome.next.injEq]
  rfl

theorem execPclPoll_next {i : Nat} : execPclPoll i s = .next t ↔
    s.inService = false ∧ i < s.sensors.length ∧ ∃ w, s.config.wiring[i]? = some w ∧
      s.clearOutput.poll i w = some t := by
  simp only [execPclPoll, asPoll_next, onSensor_next, State.clearOutput_config, State.clearOutput_sensors]
  refine and_congr_right fun _ => and_congr_right fun _ => ?_
  cases hw : s.config.wiring[i]? with
  | none => simp
  | some w => cases hp : s.clearOutput.poll i w <;> simp [hp]

theorem execOotxAdd_next {i : Nat} {bit : BitVec 32} : execOotxAdd i bit s = .next t ↔
    s.inService = false ∧ i < s.sensors.length ∧ s.clearOutput.ootxAdd i bit = t := by
  simp only [execOotxAdd, asPoll_next, onSensor_next, Host.Outcome.next.injEq]
  rfl

theorem execOotxAck_next {i : Nat} : execOotxAck i s = .next t ↔
    s.inService = false ∧ i < s.sensors.length ∧
      s.clearOutput.setFrame i { (s.sensor i).frame with complete := false } = t := by
  simp only [execOotxAck, asPoll_next, onSensor_next, Host.Outcome.next.injEq]
  rfl

theorem execOotxRst_next {i : Nat} : execOotxRst i s = .next t ↔
    s.inService = false ∧ i < s.sensors.length ∧ s.clearOutput.setFrame i (s.sensor i).frame.rearm = t := by
  simp only [execOotxRst, asPoll_next, onSensor_next, Host.Outcome.next.injEq]
  rfl

theorem execSolSetsrc_next {k : BitVec 1} {rot : Mat3 FloatWord} {origin : Vec3 FloatWord} :
    execSolSetsrc k rot origin s = .next t ↔
      s.inService = false ∧ s.clearOutput.setSource k ⟨rot, origin, true⟩ = t := by
  simp only [execSolSetsrc, asPoll_next, Host.Outcome.next.injEq]

theorem execSolUpdate_next {i : Nat} {slot : BitVec 8} {angle : FloatWord} : execSolUpdate i slot angle s = .next t ↔
    s.inService = false ∧ i < s.sensors.length ∧
      (s.clearOutput.update i slot.toNat angle).2.returns (.updated (s.clearOutput.update i slot.toNat angle).1) = t := by
  simp only [execSolUpdate, asPoll_next, onSensor_next, Host.Outcome.next.injEq]
  rfl

theorem execSolCompute_next {i : Nat} : execSolCompute i s = .next t ↔
    s.inService = false ∧ i < s.sensors.length ∧
      (s.clearOutput.compute i).2.returns (.computed (s.clearOutput.compute i).1) = t := by
  simp only [execSolCompute, asPoll_next, onSensor_next, Host.Outcome.next.injEq]
  rfl

end Sys2Proof.Machine
end

