-- ==== Sys2Proof/Laws/PerInstr.lean ====
section
/-! SUPPORT. The family EncodeShape: the event of every operation carries as many operands as 30_encoding.md R100 gives
its code, and its code is one of the table. -/

namespace Sys2Proof.Laws

/-- The event of an operation has a code of the table and that code's number of operands. -/
def EncodeShape.Statement (i : Instr) : Prop :=
  (encode i).code ∈ operationCodes ∧ (encode i).operands.length = operandCount (encode i).code

theorem EncodeShape.reset : EncodeShape.Statement .reset := ⟨by simp [encode, operationCodes], rfl⟩
theorem EncodeShape.ecbBegin (pin : Nat) (pol : Polarity) : EncodeShape.Statement (.ecbBegin pin pol) :=
  ⟨by simp [encode, operationCodes], rfl⟩
theorem EncodeShape.ecbTov : EncodeShape.Statement .ecbTov := ⟨by simp [encode, operationCodes], rfl⟩
theorem EncodeShape.ecbCap (ch : Nat) (low : BitVec 16) : EncodeShape.Statement (.ecbCap ch low) :=
  ⟨by simp [encode, operationCodes], rfl⟩
theorem EncodeShape.ecbIret : EncodeShape.Statement .ecbIret := ⟨by simp [encode, operationCodes], rfl⟩
theorem EncodeShape.ecbRead (ch : Nat) : EncodeShape.Statement (.ecbRead ch) :=
  ⟨by simp [encode, operationCodes], rfl⟩
theorem EncodeShape.pclPoll (i : Nat) : EncodeShape.Statement (.pclPoll i) :=
  ⟨by simp [encode, operationCodes], rfl⟩
theorem EncodeShape.pclPulse (i : Nat) (rise : Timestamp) : EncodeShape.Statement (.pclPulse i rise) :=
  ⟨by simp [encode, operationCodes], rfl⟩
theorem EncodeShape.ootxAdd (i : Nat) (bit : BitVec 32) : EncodeShape.Statement (.ootxAdd i bit) :=
  ⟨by simp [encode, operationCodes], rfl⟩
theorem EncodeShape.ootxAck (i : Nat) : EncodeShape.Statement (.ootxAck i) :=
  ⟨by simp [encode, operationCodes], rfl⟩
theorem EncodeShape.ootxRst (i : Nat) : EncodeShape.Statement (.ootxRst i) :=
  ⟨by simp [encode, operationCodes], rfl⟩
theorem EncodeShape.solSetsrc (k : BitVec 1) (rot : Mat3 FloatWord) (origin : Vec3 FloatWord) :
    EncodeShape.Statement (.solSetsrc k rot origin) := ⟨by simp [encode, operationCodes], rfl⟩
theorem EncodeShape.solUpdate (i : Nat) (slot : BitVec 8) (angle : FloatWord) :
    EncodeShape.Statement (.solUpdate i slot angle) := ⟨by simp [encode, operationCodes], rfl⟩
theorem EncodeShape.solCompute (i : Nat) : EncodeShape.Statement (.solCompute i) :=
  ⟨by simp [encode, operationCodes], rfl⟩

end Sys2Proof.Laws
end

