-- ==== Sys2Proof/Tests/Slice0.lean ====
section
/-! SUPPORT. Tests of the model: ill-formed terms that WellFormed refuses, events written out from 30_encoding.md R100
that decode to their operations, single steps with the results of 95_test_vectors.md (the vector is named), and for
every obligation with hypotheses a state and operands that meet them (`witness_<Name>`). -/

namespace Sys2Proof.Tests

open Sys2Proof Sys2Proof.Machine

/-! ## Helpers -/

/-- The next state of an answer. -/
def stateOf : Answer → Option State
  | .next t => some t
  | _ => none

/-- The next state of an answer that has one. -/
def after (a : Answer) : State := (stateOf a).getD State.reset

/-- The output of an answer that has a next state. -/
def outputOf (a : Answer) : Option Output := (stateOf a).map State.output

theorem next_after {a : Answer} (h : (stateOf a).isSome = true) : a = .next (after a) := by
  cases a with
  | next t => rfl
  | fault f => cases f
  | refused r => cases h

theorem exists_next {a : Answer} (h : (stateOf a).isSome = true) : ∃ t, a = .next t := ⟨_, next_after h⟩

/-- State.reset with a claimed channel `ch` in a given state. -/
def withChannel (ch w r : Nat) (rb : Bank 32) : State := State.reset.setChannel ch ⟨true, .rising, w, r, rb⟩

/-- Slots 0 to `n - 1` hold `base`, `base + 1`, … -/
def slots (base n : Nat) : Bank 32 := (List.range n).map fun k => (k, BitVec.ofNat 32 (base + k))

/-- State.reset with the decode state of sensor 0 replaced. -/
def withDecode (d : DecodeState) : State := State.reset.setDecode 0 d

/-- A decode state: edges, `zero_time`, axis, id, the three flags. -/
def dec (rise fall cycle : Nat) (axis : Bool) (lh : LhId) (sweep skip notSkip : Bool) : DecodeState :=
  ⟨BitVec.ofNat 32 rise, BitVec.ofNat 32 fall, BitVec.ofNat 32 cycle, axis, lh, sweep, skip, notSkip⟩

/-- State.reset with the decoder of sensor 0 in a given state. -/
def withFrame (acc : BitVec 18) (nbits : Nat) (mode : FrameMode) (rx len : Nat) : State :=
  State.reset.setFrame 0 ⟨acc, nbits, mode, [], rx, len, false, false⟩

/-- The identity matrix in binary32. -/
def identity3 : Mat3 FloatWord := ⟨⟨0x3F800000, 0, 0⟩, ⟨0, 0x3F800000, 0⟩, ⟨0, 0, 0x3F800000⟩⟩

/-- The set-up of 95_test_vectors.md 2.4: identity matrices, origins (−1, 0, 0) and (1, 0, 0); sensors 0 and 1 with
given angles and mask. -/
def withSources (a : Angles FloatWord) (fresh : BitVec 4) : State :=
  let s := { State.reset with
    src0 := ⟨identity3, ⟨0xBF800000, 0, 0⟩, true⟩, src1 := ⟨identity3, ⟨0x3F800000, 0, 0⟩, true⟩ }
  (s.setFix 0 ⟨a, fresh, ⟨0, 0, 0⟩, 0⟩).setFix 1 ⟨a, fresh, ⟨0, 0, 0⟩, 0⟩

/-- The angles of V-SOL-1, `−π/4, 0, π/4, 0`. -/
def crossing : Angles FloatWord := ⟨0xBF490FDB, 0, 0x3F490FDB, 0⟩

/-- A binary32 number is within 0.0001 of `n / 1000000`, the tolerance of 95_test_vectors.md. -/
def near (w : FloatWord) (n : Int) : Bool :=
  match b32Value w with
  | some q => decide (|q - mkRat n 1000000| ≤ mkRat 1 10000)
  | none => false

/-- Three numbers, each near. -/
def nearVec (v : Vec3 FloatWord) (x y z : Int) : Bool := near v.x x && near v.y y && near v.z z

/-! ## WellFormed refuses ill-formed terms -/

theorem test_fits : (Instr.ecbRead (2 ^ 64 - 1)).fits = true ∧ (Instr.ecbRead (2 ^ 64)).fits = false := by decide
theorem test_pin_range : (Instr.ecbBegin 4 .rising).inRange Config.i48 = true ∧
    (Instr.ecbBegin 5 .rising).inRange Config.i48 = false := by decide
theorem test_channel_range : (Instr.ecbCap 3 0).inRange Config.i48 = true ∧
    (Instr.ecbCap 4 0).inRange Config.i48 = false ∧ (Instr.ecbRead 4).inRange Config.i48 = false := by decide
theorem test_sensor_range : (Instr.pclPoll 1).inRange Config.i48 = true ∧
    (Instr.pclPoll 2).inRange Config.i48 = false ∧ (Instr.pclPulse 2 0).inRange Config.i48 = false ∧
    (Instr.ootxAdd 2 0).inRange Config.i48 = false ∧ (Instr.ootxAck 2).inRange Config.i48 = false ∧
    (Instr.ootxRst 2).inRange Config.i48 = false ∧ (Instr.solUpdate 2 0 0).inRange Config.i48 = false ∧
    (Instr.solCompute 2).inRange Config.i48 = false := by decide
theorem test_wellFormed : (Instr.pclPoll 1).wellFormed Config.i48 = true ∧
    (Instr.pclPoll 2).wellFormed Config.i48 = false := by decide
theorem test_config_i48 : Config.i48.wellFormed = true := by decide +kernel
theorem test_config_highWater : { Config.i48 with highWater := 0 }.wellFormed = false ∧
    { Config.i48 with highWater := 65536 }.wellFormed = false := by decide +kernel
theorem test_config_thresholds : { Config.i48 with tShort := 0 }.wellFormed = false ∧
    { Config.i48 with tGap := 0 }.wellFormed = false ∧ { Config.i48 with tWindow := 0 }.wellFormed = false ∧
    { Config.i48 with tOffset := 0 }.wellFormed = false ∧ { Config.i48 with tSpan := 0 }.wellFormed = false := by
  decide +kernel
theorem test_config_sync_count : { Config.i48 with sync := Config.syncI48.take 7 }.wellFormed = false := by
  decide +kernel
theorem test_config_sync_short : { Config.i48 with tShort := 2800 }.wellFormed = false := by decide +kernel
theorem test_config_sync_apart : { Config.i48 with syncTol := 249 }.wellFormed = true ∧
    { Config.i48 with syncTol := 250 }.wellFormed = false := by decide +kernel
theorem test_config_sync_bits :
    { Config.i48 with sync := Config.syncI48.map fun (c : SyncCode) => ⟨c.center, default⟩ }.wellFormed = false := by decide +kernel
theorem test_config_eps : { Config.i48 with solveEps := 0 }.wellFormed = false ∧
    { Config.i48 with solveEps := 0x7F800000 }.wellFormed = false := by decide +kernel
theorem test_config_idx : { Config.i48 with idxW := 6 }.wellFormed = false := by decide +kernel
theorem test_config_maps : { Config.i48 with pinToChannel := [4] }.wellFormed = false ∧
    { Config.i48 with wiring := [⟨1, 1⟩] }.wellFormed = false ∧
    { Config.i48 with wiring := [⟨1, 4⟩] }.wellFormed = false := by decide +kernel
theorem test_config_ray : { Config.i48 with rayLocal := .platform 0 .z .x true }.wellFormed = true ∧
    { Config.i48 with rayLocal := .platform 0 .x .x true }.wellFormed = false := by decide +kernel
theorem test_memory_wf : Memory.wf 64 (slots 0 64) ∧ ¬ Memory.wf 64 (slots 0 65) ∧
    ¬ Memory.wf 64 [(3, (0 : BitVec 32)), (3, 1)] := by decide +kernel

/-! ## Decoding: events written out from the table of 30_encoding.md R100 -/

theorem test_decode_reset : decode ⟨0x00, []⟩ = .ok .reset ∧ decode ⟨0x00, [0]⟩ = .error .operandCount := by
  exact ⟨rfl, rfl⟩
theorem test_decode_begin : decode ⟨0x10, [4, 0]⟩ = .ok (.ecbBegin 4 .falling) ∧
    decode ⟨0x10, [4, 1]⟩ = .ok (.ecbBegin 4 .rising) ∧ decode ⟨0x10, [4, 2]⟩ = .error .operandRange := by
  exact ⟨rfl, rfl, rfl⟩
theorem test_decode_tov : decode ⟨0x11, []⟩ = .ok .ecbTov := rfl
theorem test_decode_cap : decode ⟨0x12, [1, 0xF000]⟩ = .ok (.ecbCap 1 0xF000) ∧
    decode ⟨0x12, [1, 0x10000]⟩ = .error .operandRange := by exact ⟨rfl, rfl⟩
theorem test_decode_iret : decode ⟨0x13, []⟩ = .ok .ecbIret := rfl
theorem test_decode_read : decode ⟨0x14, [2]⟩ = .ok (.ecbRead 2) := rfl
theorem test_decode_poll : decode ⟨0x20, [1]⟩ = .ok (.pclPoll 1) := rfl
theorem test_decode_pulse : decode ⟨0x21, [1, 0xFFFFFFFF]⟩ = .ok (.pclPulse 1 0xFFFFFFFF) := rfl
theorem test_decode_add : decode ⟨0x30, [0, 2]⟩ = .ok (.ootxAdd 0 2) := rfl
theorem test_decode_ack : decode ⟨0x31, [0]⟩ = .ok (.ootxAck 0) := rfl
theorem test_decode_rst : decode ⟨0x32, [1]⟩ = .ok (.ootxRst 1) := rfl
theorem test_decode_setsrc : decode ⟨0x40, [1, 10, 11, 12, 20, 21, 22, 30, 31, 32, 40, 41, 42]⟩ =
    .ok (.solSetsrc 1 ⟨⟨10, 11, 12⟩, ⟨20, 21, 22⟩, ⟨30, 31, 32⟩⟩ ⟨40, 41, 42⟩) := rfl
theorem test_decode_update : decode ⟨0x41, [0, 255, 0x3F800000]⟩ = .ok (.solUpdate 0 255 0x3F800000) := rfl
theorem test_decode_compute : decode ⟨0x42, [1]⟩ = .ok (.solCompute 1) := rfl
theorem test_decode_unlisted : decode ⟨0x15, []⟩ = .error .unknownCode ∧ decode ⟨0xFF, []⟩ = .error .unknownCode :=
  ⟨rfl, rfl⟩
/-- The bits of an event: the code in bits 7..0, the operands above it. -/
theorem test_table_words : decodeTableWord 8 0x00 = some .reset ∧ decodeTableWord 8 0x12 = some (.ecbCap 0 0) ∧
    decodeTableWord 8 0x41 = some (.solUpdate 0 0 0) ∧ decodeTableWord 8 0x43 = none ∧
    decodeTableWord 136 (0x12 + 3 * 2 ^ 8 + 0xE123 * 2 ^ 72) = some (.ecbCap 3 0xE123) := by decide +kernel
/-- The placed event is the one the next step runs. -/
theorem test_withFetchWord :
    (stateOf (step (State.reset.withFetchWord 8 0x11))).map State.ovfCounter = some 1 := by decide +kernel

/-! ## Single steps -/

theorem test_reset_keeps : let s := { withChannel 1 5 2 [] with ovfCounter := 5 }
    (stateOf (exec .reset s)).map (fun t => (t.ovfCounter, t.claimedMask, t.channels.map Channel.writeIndex)) =
      some (0, 0, [0, 0, 0, 0]) := by decide +kernel
/-- V-ECB-7. -/
theorem test_begin : outputOf (exec (.ecbBegin 4 .falling) State.reset) = some ⟨.begun true, []⟩ ∧
    (after (exec (.ecbBegin 4 .falling) State.reset)).claimedMask = 1 := by decide +kernel
/-- V-ECB-7, second call. -/
theorem test_begin_conflict : outputOf (exec (.ecbBegin 0 .rising) (withChannel 0 7 7 [])) =
    some ⟨.begun false, [.configurationConflict 0]⟩ := by decide +kernel
/-- V-ECB-4. -/
theorem test_tov_wraps : (stateOf (exec .ecbTov { State.reset with ovfCounter := 0xFFFF })).map
    (fun t => (t.ovfCounter, t.ovfBusy)) = some (0, true) := by decide +kernel
/-- V-ECB-1. -/
theorem test_cap_previous : (stateOf (exec (.ecbCap 1 0xF000)
    { withChannel 1 0 0 [] with ovfCounter := 5, ovfBusy := true, inService := true })).map
      (fun t => (t.channels[1]?.map fun c => (c.writeIndex, c.rb))) = some (some (1, [(0, 0x0004F000)])) := by
  decide +kernel
/-- V-ECB-3: below and at the threshold. -/
theorem test_cap_threshold : let s := { withChannel 1 0 0 [] with ovfCounter := 6, ovfBusy := true, inService := true }
    s.stamp 0xDFFF = 0x0006DFFF ∧ s.stamp 0xE000 = 0x0005E000 ∧ s.stamp 0 = 0x00060000 := by decide +kernel
/-- V-ECB-1, end. -/
theorem test_iret : (stateOf (exec .ecbIret { State.reset with ovfCounter := 5, ovfBusy := true, inService := true })).map
    (fun t => (t.ovfCounter, t.ovfBusy)) = some (5, false) := by decide +kernel
/-- V-ECB-6: slot 37 of the 64 holds push 37; slots 0 to 35 hold pushes 64 to 99. -/
theorem test_read_loss : let s := withChannel 1 100 0 [(36, 0x1024), (37, 0x1025), (38, 0x1026)]
    outputOf (exec (.ecbRead 1) s) = some ⟨.read (.sampleWithLoss 0x1025), [.sampleLoss 1]⟩ ∧
    ((after (exec (.ecbRead 1) s)).channels[1]?.map Channel.readIndex) = some 38 := by decide +kernel
/-- V-ECB-10: the index wraps. -/
theorem test_read_wrap : let s := withChannel 1 0 0xFFFFFFFF [(62, 0xAAAA0001), (63, 2)]
    outputOf (exec (.ecbRead 1) s) = some ⟨.read (.sample 2), []⟩ ∧
    ((after (exec (.ecbRead 1) s)).channels[1]?.map Channel.readIndex) = some 0 := by decide +kernel
/-- V-PCL-7, first poll. -/
theorem test_poll_falling : let s := withChannel 0 1 0 [(0, 0x000F4240)]
    outputOf (exec (.pclPoll 0) s) = some ⟨.polled false none, []⟩ ∧
    ((after (exec (.pclPoll 0) s)).sensor 0).decode.lastFall = 1000000 := by decide +kernel
/-- V-PCL-8: both edges captured at the interleave point. -/
theorem test_poll_interleave :
    let s := ((withDecode (dec 1003000 1000000 0 false .unknown false false false)).setChannel 0
      ⟨true, .falling, 0, 0, []⟩).setChannel 1 ⟨true, .rising, 0, 0, []⟩
    outputOf (exec (.pclPoll 0) { s with
      ovfCounter := 0x000F, interleave := [[⟨false, [(0, 0x9060)]⟩, ⟨false, [(1, 0xA3E8)]⟩]] }) =
      some ⟨.polled false (some (.unmatched ⟨1025000, 25000, 22000⟩)), [.protocolResync 0]⟩ := by decide +kernel
/-- V-PCL-5, first row. -/
theorem test_pulse_sweep :
    let s := withDecode (dec 1140480 1240000 1000000 true .zero false true true)
    (match (after (exec (.pclPulse 0 1240480) s)).output.result with
      | .pulse (.sweepValid ⟨1240480, 480, 100000⟩ 1 a false) => near a 378891
      | _ => false) = true := by decide +kernel
/-- V-PCL-3, first row: `duty` equal to `T_GAP` is not stale; the bit is forwarded. -/
theorem test_pulse_sync :
    let s := withDecode (dec 961600 996000 777 true .one false true true)
    outputOf (exec (.pclPulse 0 1000000) s) =
      some ⟨.pulse (.sync ⟨1000000, 4000, 38400⟩ ⟨false, false, true⟩ true), []⟩ ∧
    ((after (exec (.pclPulse 0 1000000) s)).sensor 0).decode = dec 1000000 996000 996000 false .zero false true true ∧
    ((after (exec (.pclPulse 0 1000000) s)).sensor 0).frame.acc = 1 := by decide +kernel
/-- V-OOTX-1, bit 86. -/
theorem test_add_completes :
    let f := ((after (exec (.ootxAdd 0 1) (withFrame 0x0304 16 .data 4 6))).sensor 0).frame
    f.complete = true ∧ f.rxCount = 6 ∧ f.mode = .preamble ∧ f.ob = [(4, 0x03), (5, 0x04)] := by decide +kernel
/-- V-OOTX-5. -/
theorem test_add_malformed :
    let f := ((after (exec (.ootxAdd 0 2) (withFrame 0x15 5 .data 0 6))).sensor 0).frame
    f.mode = .preamble ∧ f.nbits = 0 ∧ f.acc = 0 ∧ f.length = 6 := by decide +kernel
/-- V-OOTX-9, end. -/
theorem test_ack : let s := State.reset.setFrame 0 ⟨0, 0, .preamble, [(0, 0x55)], 4, 4, false, true⟩
    ((after (exec (.ootxAck 0) s)).sensor 0).frame = ⟨0, 0, .preamble, [(0, 0x55)], 4, 4, false, false⟩ := by
  decide +kernel
/-- 42_ootx_decoder.md R171. -/
theorem test_rst : ((after (exec (.ootxRst 0) (withFrame 0x15 5 .data 2 6))).sensor 0).frame =
    ⟨0, 0, .preamble, [], 2, 6, false, false⟩ := by decide +kernel
/-- V-SOL-7: the matrix of source 1 by rows. -/
theorem test_setsrc : let m : Mat3 FloatWord := ⟨⟨0, 0xBF800000, 0⟩, ⟨0x3F800000, 0, 0⟩, ⟨0, 0, 0x3F800000⟩⟩
    let t := after (exec (.solSetsrc 1 m ⟨0x3F800000, 0, 0⟩) State.reset)
    t.src1 = ⟨m, ⟨0x3F800000, 0, 0⟩, true⟩ ∧ t.src0.valid = false := by decide +kernel
/-- V-SOL-1, the fourth update. -/
theorem test_update_solves : let t := after (exec (.solUpdate 0 3 0) (withSources crossing 0b0111))
    t.output = ⟨.updated true, []⟩ ∧ nearVec (t.sensor 0).fix.pos 0 0 (-1000000) = true ∧
      near (t.sensor 0).fix.dist 0 = true ∧ (t.sensor 0).fix.fresh = 0 := by decide +kernel
/-- V-SOL-4. -/
theorem test_update_slot_range : let s := withSources crossing 0b0111
    (after (exec (.solUpdate 0 7 0x3F800000) s)).output = ⟨.updated false, []⟩ ∧
      ((after (exec (.solUpdate 0 7 0x3F800000) s)).sensor 0).fix = (s.sensor 0).fix := by decide +kernel
/-- V-SOL-6: skew lines; the second angle of source 0 is 0.1. -/
theorem test_compute_skew :
    let t := after (exec (.solCompute 0) (withSources { crossing with slot1 := 0x3DCCCCCD } 0))
    t.output = ⟨.computed true, []⟩ ∧ nearVec (t.sensor 0).fix.pos (-2504) 49916 (-997496) = true ∧
      near (t.sensor 0).fix.dist 100083 = true := by decide +kernel
/-- V-SOL-2: parallel rays. -/
theorem test_compute_parallel : let s := withSources ⟨0, 0, 0, 0⟩ 0
    (after (exec (.solCompute 0) s)).output = ⟨.computed false, [.geometryFailure 0]⟩ ∧
      (after (exec (.solCompute 0) s)).sensors = s.sensors := by decide +kernel

/-! ## Witnesses: each meets all hypotheses of the obligation it names together -/

/-- A state with an unread sample on channel 0, sensor 0 locked on source 0, an edge event queued and a service due
at the next poll. -/
def locked : State :=
  { (withDecode (dec 1140480 1240000 1000000 true .zero false true true)).setChannel 0
      ⟨true, .falling, 1, 0, [(0, 7)]⟩ with
    inbox := [⟨0x21, [0, 1240480]⟩], interleave := [[⟨true, [(1, 5)]⟩]] }

theorem channel_ok_idle (p : Polarity) : (Channel.afterReset p).Ok 32 := by
  refine ⟨by cases p <;> decide, by cases p <;> decide, Memory.wf_nil _, fun _ => ⟨rfl, rfl⟩, ?_⟩
  intro k h1 _ h3
  have : (Channel.afterReset p).gap 32 = 0 := by cases p <;> decide
  omega

theorem frame_ok_idle : (Sensor.afterReset fun _ => 0).frame.Ok := by
  constructor <;> simp [Sensor.afterReset, Memory.wf]

theorem locked_ok : locked.Ok := by
  have hc : ∀ c ∈ locked.channels, c.Ok locked.config.idxW := by
    have e : locked.channels = ⟨true, .falling, 1, 0, [(0, 7)]⟩ :: List.replicate 3 (Channel.afterReset .falling) := by
      decide +kernel
    intro c h
    rw [e] at h
    rcases List.mem_cons.mp h with rfl | h
    · have hw : ∀ k, k ≤ 64 → 1 ≤ k → k ≤ (⟨true, .falling, 1, 0, [(0, 7)]⟩ : Channel).gap 32 →
          ((Bank.get [(0, (7 : BitVec 32))] (slotOf (idxSub 32 1 k))).isSome = true) := by decide +kernel
      exact ⟨by decide, by decide, by decide, by decide, fun k h1 h2 => hw k h2 h1⟩
    · rw [(List.mem_replicate.mp h).2]
      exact channel_ok_idle _
  have hs : ∀ sn ∈ locked.sensors, sn.Ok := by
    have e : locked.sensors = [{ Sensor.afterReset (fun _ => 0) with
        decode := dec 1140480 1240000 1000000 true .zero false true true }, Sensor.afterReset fun _ => 0] := by
      decide +kernel
    intro sn h
    rw [e] at h
    rcases List.mem_cons.mp h with rfl | h
    · exact ⟨fun _ => ⟨rfl, rfl, rfl⟩, frame_ok_idle, rfl⟩
    · rw [List.mem_singleton.mp h]
      exact ⟨fun h => absurd rfl h, frame_ok_idle, rfl⟩
  exact ⟨by decide +kernel, by decide, by decide, by decide, hc, hs⟩

theorem witness_DecodeEncodeRoundTrip : (Instr.ecbCap (2 ^ 64 - 1) 0xFFFF).fits = true := by decide
theorem witness_EncodeDecodeExact : decode ⟨0x21, [5, 0xFFFFFFFF]⟩ = .ok (.pclPulse 5 0xFFFFFFFF) := rfl
theorem witness_RefusedCodesAndIndices_code : (State.reset.withFetchWord 8 0x43).inbox = [⟨0x43, []⟩] ∧
    (0x43 : BitVec 8) ∉ operationCodes := by decide
theorem witness_RefusedCodesAndIndices_index : State.reset.channels.length = State.reset.config.nChannels ∧
    State.reset.sensors.length = State.reset.config.nSensors ∧
    (Instr.ecbBegin 5 .rising).inRange State.reset.config = false := by decide
theorem witness_RefusedCodesAndIndices_sensor : State.reset.inService = false ∧ 1 < State.reset.sensors.length := by
  decide
theorem witness_StepRunsDecodedEvent : locked.inbox = [⟨0x21, [0, 1240480]⟩] ∧
    decode ⟨0x21, [0, 1240480]⟩ = .ok (.pclPulse 0 1240480) := ⟨rfl, rfl⟩
theorem witness_StepRunsDecodedEvent_idle : State.reset.inbox = [] := rfl
theorem witness_StepKeepsOk : locked.Ok ∧ ∃ t, step locked = .next t :=
  ⟨locked_ok, exists_next (by decide +kernel)⟩
theorem witness_StepKeepsParameters : ∃ t, step locked = .next t := exists_next (by decide +kernel)
theorem witness_ConsumerLeavesProducerState : isIrq (.ecbRead 0) = false ∧ Instr.ecbRead 0 ≠ .reset ∧
    (∀ pin pol, Instr.ecbRead 0 ≠ .ecbBegin pin pol) ∧ (∀ i, Instr.ecbRead 0 ≠ .pclPoll i) ∧
    ∃ t, exec (.ecbRead 0) locked = .next t :=
  ⟨rfl, nofun, nofun, nofun, exists_next (by decide +kernel)⟩
theorem witness_ProducerLeavesConsumerState : isIrq (.ecbCap 0 0xFFFF) = true ∧
    ∃ t, exec (.ecbCap 0 0xFFFF) locked = .next t := ⟨rfl, exists_next (by decide +kernel)⟩
theorem witness_ServiceExcludesPoll : { State.reset with inService := true }.inService = true ∧
    isIrq (.pclPoll 0) = false := ⟨rfl, rfl⟩
theorem witness_ResetOperationClears : locked.inService = false := rfl
theorem witness_BeginClaimsChannel : State.reset.inService = false ∧ State.reset.config.pinToChannel[4]? = some 0 ∧
    State.reset.channels[0]? = some (Channel.afterReset .falling) ∧ (Channel.afterReset .falling).claimed = false := by
  decide +kernel
theorem witness_BeginClaimsChannel_conflict : locked.inService = false ∧ locked.config.pinToChannel[4]? = some 0 ∧
    locked.channels[0]? = some ⟨true, .falling, 1, 0, [(0, 7)]⟩ := by decide +kernel
theorem witness_BeginClaimsChannel_range : State.reset.inService = false ∧ State.reset.config.nPins ≤ 5 := by decide
theorem witness_OverflowCounts : State.reset.inService = false ∧ { State.reset with inService := true }.inService = true :=
  ⟨rfl, rfl⟩
theorem witness_CaptureAppends : locked.channels[0]? = some ⟨true, .falling, 1, 0, [(0, 7)]⟩ ∧
    locked.channels[1]? = some (Channel.afterReset .falling) ∧ (Channel.afterReset .falling).claimed = false := by
  decide +kernel

/-- Channel 0 with `n` captures and no read, all slots in use. -/
def lagging (n : Nat) : State := withChannel 0 n 0 (slots 0x1000 64)

theorem witness_ReadDelivers_empty : (lagging 0).inService = false ∧
    (lagging 0).channels[0]? = some ⟨true, .rising, 0, 0, slots 0x1000 64⟩ := by decide +kernel
theorem witness_ReadDelivers_sample : let c : Channel := ⟨true, .rising, 64, 0, slots 0x1000 64⟩
    (lagging 64).inService = false ∧ (lagging 64).channels[0]? = some c ∧ c.writeIndex ≠ c.readIndex ∧
    (c.writeIndex + (2 ^ 32 - c.readIndex % 2 ^ 32)) % 2 ^ 32 ≤ 64 ∧ c.rb.get (c.readIndex % 64) = some 0x1000 := by
  decide +kernel
theorem witness_ReadDelivers_loss : let c : Channel := ⟨true, .rising, 65, 0, slots 0x1000 64⟩
    (lagging 65).inService = false ∧ (lagging 65).channels[0]? = some c ∧ c.writeIndex ≠ c.readIndex ∧
    64 < (c.writeIndex + (2 ^ 32 - c.readIndex % 2 ^ 32)) % 2 ^ 32 ∧
    c.rb.get (idxAdd 32 (idxSub 32 c.writeIndex 64) 1 % 64) = some 0x1002 := by decide +kernel
theorem witness_ReadOfUnclaimedIsNoData : locked.Ok ∧ locked.inService = false ∧
    locked.channels[2]? = some (Channel.afterReset .falling) ∧ (Channel.afterReset .falling).claimed = false :=
  ⟨locked_ok, by decide +kernel⟩
theorem witness_ReadNeverMeetsUnwrittenSlot : locked.Ok ∧ ∃ t, exec (.ecbRead 0) locked = .next t :=
  ⟨locked_ok, exists_next (by decide +kernel)⟩
/-- The edge and its capture lie in the same wrap, 8191 ticks apart. -/
theorem witness_ReconstructionCorrectUnderContract : let s := { locked with ovfCounter := 5 }
    let T := 5 * 65536 + 1000
    let C := T + 8191
    s.channels[0]? = some ⟨true, .falling, 1, 0, [(0, 7)]⟩ ∧ 0 < s.config.highWater ∧ s.config.highWater < 65536 ∧
    s.ovfCounter = BitVec.ofNat 16 5 ∧ T ≤ C ∧ 65536 * 5 ≤ C ∧
    (5 = T / 65536 ∨ (5 = T / 65536 + 1 ∧ s.ovfBusy = true)) ∧ C < T + (65536 - s.config.highWater) ∧
    (s.ovfBusy = true → C < 65536 * 5 + s.config.highWater) := by decide +kernel
/-- The edge is the last tick before the wrap, the capture comes in the service that counted it. -/
theorem witness_ReconstructionCorrectUnderContract_race :
    let s := { locked with ovfCounter := 6, ovfBusy := true, inService := true }
    let T := 6 * 65536 - 1
    let C := 6 * 65536 + 100
    s.channels[0]? = some ⟨true, .falling, 1, 0, [(0, 7)]⟩ ∧ 0 < s.config.highWater ∧ s.config.highWater < 65536 ∧
    s.ovfCounter = BitVec.ofNat 16 6 ∧ T ≤ C ∧ 65536 * 6 ≤ C ∧
    (6 = T / 65536 ∨ (6 = T / 65536 + 1 ∧ s.ovfBusy = true)) ∧ C < T + (65536 - s.config.highWater) ∧
    (s.ovfBusy = true → C < 65536 * 6 + s.config.highWater) := by decide +kernel

/-- `NeverLapped` as a computation. -/
def lapFree (w : Nat) : Channel → List ChannelEvent → Bool
  | c, [] => decide (c.gap w ≤ 64)
  | c, e :: rest => decide (c.gap w ≤ 64) && lapFree w (c.event w e).2 rest

theorem neverLapped_of_lapFree (w : Nat) : ∀ (l : List ChannelEvent) (c : Channel), lapFree w c l = true →
    c.NeverLapped w l
  | [], c, h => of_decide_eq_true (p := c.gap w ≤ 64) h
  | _ :: rest, c, h =>
    have h := Bool.and_eq_true_iff.mp h
    ⟨of_decide_eq_true (p := c.gap w ≤ 64) h.1, neverLapped_of_lapFree w rest _ h.2⟩

/-- 64 captures, so the gap reaches 64 and no more, then two reads and a capture; the index wraps at 2^7. -/
theorem witness_FifoDelivery : let c : Channel := ⟨true, .rising, 127, 127, []⟩
    let l := List.replicate 64 (.push 5) ++ [.read, .read, .push 6]
    c.Ok 7 ∧ c.claimed = true ∧ c.writeIndex = c.readIndex ∧ c.NeverLapped 7 l := by
  refine ⟨⟨by decide, by decide, Memory.wf_nil _, nofun, ?_⟩, rfl, rfl, neverLapped_of_lapFree _ _ _ (by decide +kernel)⟩
  intro k h1 _ h3
  have : (⟨true, .rising, 127, 127, []⟩ : Channel).gap 7 = 0 := by decide
  omega
theorem witness_LossHeals : let c : Channel := ⟨true, .rising, 0, 0, []⟩
    c.claimed = true ∧ c.writeIndex = 0 ∧ c.readIndex = 0 ∧ 64 < (List.replicate 65 (5 : Timestamp)).length ∧
    (List.replicate 127 (5 : Timestamp)).length < 2 ^ 7 := by decide

/-! ### PulseClassifier: pulses on sensor 0 -/

theorem witness_PulseInvalidSweep : let s := withDecode (dec 990000 999281 0 false .unknown false false false)
    let d := (s.sensor 0).decode
    let length := (1000000 : Timestamp) - d.lastFall
    s.inService = false ∧ s.sensors[0]? = some (s.sensor 0) ∧ length.toNat = 719 ∧ length.toNat < s.config.tShort ∧
    ¬(d.gotSweep = false ∧ d.lhId ≠ .unknown ∧ (1000000 - length / 2 - d.zeroTime).toNat ≤ s.config.tWindow) := by
  decide +kernel
/-- V-PCL-5, third row: `delta` is `T_WINDOW`. -/
theorem witness_PulseValidSweep : let s := withDecode (dec 1284240 1383760 1000000 false .one false true true)
    let A := arithOf s.config.numerics
    let d := (A.ofNat 384000).getD 0
    let o := (A.ofNat s.config.tOffset).getD 0
    let n := (A.sub d o).getD 0
    let m := (A.mul n A.pi).getD 0
    let p := (A.ofNat s.config.tSpan).getD 0
    let length := (1384240 : Timestamp) - (s.sensor 0).decode.lastFall
    let delta := 1384240 - length / 2 - (s.sensor 0).decode.zeroTime
    s.inService = false ∧ s.sensors[0]? = some (s.sensor 0) ∧ length.toNat < s.config.tShort ∧
    (s.sensor 0).decode.gotSweep = false ∧ delta.toNat = 384000 ∧ delta.toNat ≤ s.config.tWindow ∧
    (s.sensor 0).decode.lhId = .one ∧ A.ofNat delta.toNat = some d ∧ A.ofNat s.config.tOffset = some o ∧
    A.sub d o = some n ∧ A.mul n A.pi = some m ∧ A.ofNat s.config.tSpan = some p ∧ (A.div m p).isSome = true := by
  decide +kernel
/-- The same with `lh_id = 0`, V-PCL-5, first row. -/
theorem witness_PulseValidSweep_zero : (locked.sensor 0).decode.lhId = .zero ∧
    sweepValid locked.config (pulseMidpoint 1240480 480 - 1000000) (locked.sensor 0).decode = true ∧
    (sweepAngle locked.config 240240).isSome = true := by decide +kernel
/-- V-PCL-3, second and third rows. -/
theorem witness_PulseTakesGuard : let s := withDecode (dec 961599 996000 777 true .one false true true)
    let d := (s.sensor 0).decode
    s.inService = false ∧ s.sensors[0]? = some (s.sensor 0) ∧ s.config.guardFallthrough = false ∧
    s.config.tShort ≤ ((1000000 : Timestamp) - d.lastFall).toNat ∧
    s.config.tGap < ((1000000 : Timestamp) - d.lastRise).toNat := by decide +kernel
theorem witness_PulseTakesGuard_sweep : let s := withDecode (dec 990000 996000 777 true .one true true true)
    let d := (s.sensor 0).decode
    s.inService = false ∧ s.sensors[0]? = some (s.sensor 0) ∧ s.config.guardFallthrough = false ∧
    s.config.tShort ≤ ((1000000 : Timestamp) - d.lastFall).toNat ∧ d.gotSweep = true := by decide +kernel
/-- V-PCL-2, length 720. -/
theorem witness_PulseUnmatchedWidth : let s := withDecode (dec 990000 999280 0 false .unknown false false false)
    let d := (s.sensor 0).decode
    let length := (1000000 : Timestamp) - d.lastFall
    s.inService = false ∧ s.sensors[0]? = some (s.sensor 0) ∧ s.config.tShort ≤ length.toNat ∧
    ((1000000 : Timestamp) - d.lastRise).toNat ≤ s.config.tGap ∧ d.gotSweep = false ∧
    (∀ code ∈ s.config.sync, ¬(code.center ≤ length.toNat + s.config.syncTol ∧
      length.toNat ≤ code.center + s.config.syncTol)) := by decide +kernel
/-- Code 2 at the upper end of its window, `got_skip` set or not. -/
theorem witness_PulseNotSkip : ∀ b : Bool, let s := withDecode (dec 961600 995800 777 true .one false b true)
    let d := (s.sensor 0).decode
    let code : SyncCode := ⟨4000, ⟨false, false, true⟩⟩
    let length := (1000000 : Timestamp) - d.lastFall
    s.inService = false ∧ s.sensors[0]? = some (s.sensor 0) ∧ s.config.wellFormed = true ∧ code ∈ s.config.sync ∧
    code.bits.skip = false ∧ code.center ≤ length.toNat + s.config.syncTol ∧
    length.toNat ≤ code.center + s.config.syncTol ∧ ((1000000 : Timestamp) - d.lastRise).toNat ≤ s.config.tGap ∧
    d.gotSweep = false ∧ d.gotSkip = b := by decide +kernel
/-- Code 4 at the lower end of its window. -/
theorem witness_PulseSkip : let s := withDecode (dec 990000 995200 777 true .unknown false false true)
    let d := (s.sensor 0).decode
    let code : SyncCode := ⟨5000, ⟨true, false, false⟩⟩
    let length := (1000000 : Timestamp) - d.lastFall
    s.inService = false ∧ s.sensors[0]? = some (s.sensor 0) ∧ s.config.wellFormed = true ∧ code ∈ s.config.sync ∧
    code.bits.skip = true ∧ code.center ≤ length.toNat + s.config.syncTol ∧
    length.toNat ≤ code.center + s.config.syncTol ∧ ((1000000 : Timestamp) - d.lastRise).toNat ≤ s.config.tGap ∧
    d.gotSweep = false := by decide +kernel
/-- V-PCL-11 and, 3250 ticks long, its unmatched counterpart. -/
theorem witness_GuardFallthrough : ∀ b : Bool,
    let s := { withDecode (dec 0 (if b then 1020000 else 1021750) 0 false .unknown false false false) with
      config := { Config.i48 with guardFallthrough := true } }
    let d := (s.sensor 0).decode
    let length := (1025000 : Timestamp) - d.lastFall
    s.inService = false ∧ s.sensors[0]? = some (s.sensor 0) ∧ s.config.guardFallthrough = true ∧
    s.config.tShort ≤ length.toNat ∧ s.config.tGap < ((1025000 : Timestamp) - d.lastRise).toNat ∧
    syncMatch s.config length = (if b then some ⟨true, false, false⟩ else none) := by decide +kernel
theorem witness_SyncClassificationExact : let s := withDecode (dec 990000 997000 0 false .unknown false false false)
    s.inService = false ∧ s.sensors[0]? = some (s.sensor 0) ∧ s.config.wellFormed = true ∧
    (s.sensor 0).decode.gotSweep = false ∧
    ((1000000 : Timestamp) - (s.sensor 0).decode.lastRise).toNat ≤ s.config.tGap ∧
    (⟨3000, ⟨false, false, false⟩⟩ : SyncCode) ∈ s.config.sync ∧
    ((1000000 : Timestamp) - (s.sensor 0).decode.lastFall).toNat = 3000 := by decide +kernel
/-- V-PCL-2: 3201 lies just above window 0. -/
theorem witness_SyncClassificationExact_dead : let s := withDecode (dec 990000 996799 0 false .unknown false false false)
    let length := (1000000 : Timestamp) - (s.sensor 0).decode.lastFall
    s.inService = false ∧ s.sensors[0]? = some (s.sensor 0) ∧ s.config.wellFormed = true ∧
    (s.sensor 0).decode.gotSweep = false ∧
    ((1000000 : Timestamp) - (s.sensor 0).decode.lastRise).toNat ≤ s.config.tGap ∧
    (⟨3000, ⟨false, false, false⟩⟩ : SyncCode) ∈ s.config.sync ∧
    (⟨3500, ⟨false, true, false⟩⟩ : SyncCode) ∈ s.config.sync ∧
    (∀ code ∈ s.config.sync, code.center ≤ 3000 ∨ 3500 ≤ code.center) ∧ length.toNat = 3201 ∧
    3000 + s.config.syncTol < length.toNat ∧ length.toNat + s.config.syncTol < 3500 := by decide +kernel
theorem witness_SyncMatchUnique : let a : SyncCode := ⟨3000, ⟨false, false, false⟩⟩
    Config.i48.wellFormed = true ∧ a ∈ Config.i48.sync ∧
    inWindow Config.i48.syncTol a (2800 : Timestamp).toNat = true := by decide +kernel
theorem witness_OnlyNotSkipAfterSkipForwards :
    ∃ t, exec (.pclPulse 0 1000000) (withDecode (dec 961600 996000 777 true .one false true true)) = .next t :=
  exists_next (by decide +kernel)
theorem witness_AngleNeedsLockedId : locked.Ok ∧ (∃ t, exec (.pclPulse 0 1240480) locked = .next t) ∧
    (match (after (exec (.pclPulse 0 1240480) locked)).output.result with
      | .pulse (.sweepValid _ slot _ _) => slot == 1
      | _ => false) = true := ⟨locked_ok, exists_next (by decide +kernel), by decide +kernel⟩
theorem witness_PulseFrame : locked.inService = false ∧ 1 < locked.sensors.length := by decide
theorem witness_PollWithoutSamples : State.reset.inService = false ∧ 1 < State.reset.sensors.length ∧
    State.reset.config.wiring[1]? = some ⟨2, 3⟩ ∧ State.reset.channels[2]? = some (Channel.afterReset .falling) ∧
    State.reset.channels[3]? = some (Channel.afterReset .falling) ∧ State.reset.interleave = [] := by decide +kernel

/-- The states of PCL.POLL on sensor 0 when channel 0 holds one sample: after the first read, after the interleave
point, after the second read, whose channel holds `n` samples. -/
def pollStart (n : Nat) : State := locked.setChannel 1 ⟨true, .rising, n, 0, [(0, 0x9000)]⟩
def pollRead (n : Nat) : State := after (exec (.ecbRead 0) { pollStart n with interleave := [] })
def pollBetween (n : Nat) : State :=
  (((pollRead n).setDecode 0 { ((pollRead n).sensor 0).decode with lastFall := 7 }).interleavePoint).getD State.reset
def pollSecond (n : Nat) : State := after (exec (.ecbRead 1) (pollBetween n))

theorem witness_PollIsItsExpansion_none : let s := { pollStart 0 with interleave := [] }
    0 < s.sensors.length ∧ s.config.wiring[0]? = some ⟨0, 1⟩ ∧ exec (.ecbRead 0) s = .next (pollRead 0) ∧
    (pollRead 0).output.result = .read (.sample 7) ∧
    ((pollRead 0).setDecode 0 { ((pollRead 0).sensor 0).decode with lastFall := 7 }).interleavePoint =
      some (pollBetween 0) ∧
    exec (.ecbRead 1) (pollBetween 0) = .next (pollSecond 0) ∧ (pollSecond 0).output.result = .read .noData :=
  ⟨by decide, by decide +kernel, next_after (by decide +kernel), by decide +kernel, by decide +kernel,
    next_after (by decide +kernel), by decide +kernel⟩
theorem witness_PollIsItsExpansion_sample : let s := { pollStart 1 with interleave := [] }
    0 < s.sensors.length ∧ s.config.wiring[0]? = some ⟨0, 1⟩ ∧ exec (.ecbRead 0) s = .next (pollRead 1) ∧
    (pollRead 1).output.result = .read (.sample 7) ∧
    ((pollRead 1).setDecode 0 { ((pollRead 1).sensor 0).decode with lastFall := 7 }).interleavePoint =
      some (pollBetween 1) ∧
    exec (.ecbRead 1) (pollBetween 1) = .next (pollSecond 1) ∧
    (pollSecond 1).output.result = .read (.sample 0x9000) ∧
    (∃ t, exec (.pclPulse 0 0x9000) (pollSecond 1) = .next t) ∧
    (match (after (exec (.pclPulse 0 0x9000) (pollSecond 1))).output.result with
      | .pulse _ => true
      | _ => false) = true :=
  ⟨by decide, by decide +kernel, next_after (by decide +kernel), by decide +kernel, by decide +kernel,
    next_after (by decide +kernel), by decide +kernel, exists_next (by decide +kernel), by decide +kernel⟩
theorem witness_PollCompletes : locked.Ok ∧ locked.inService = false ∧ 1 < locked.sensors.length ∧
    locked.servicesInRange := by
  refine ⟨locked_ok, rfl, by decide, ?_⟩
  have h : ∀ v ∈ ([⟨true, [(1, 5)]⟩] : List Service), ∀ p ∈ v.captures, p.1 < 4 := by decide
  exact h
theorem witness_ServiceIsItsEvents : locked.inService = false ∧ (locked.runService ⟨true, [(0, 5), (3, 6)]⟩).isSome = true := by
  decide +kernel

/-- Two services due at the next poll, one at the poll after it; and none. -/
theorem witness_ServiceIsItsEvents_point :
    let l : List Service := [⟨true, [(1, 5)]⟩, ⟨false, [(3, 6)]⟩]
    let s := { locked with interleave := [l, [⟨false, []⟩]] }
    s.inService = false ∧ s.interleave = l :: [[⟨false, []⟩]] ∧ (∀ v ∈ l, ∀ p ∈ v.captures, p.1 < s.channels.length) ∧
    State.reset.interleave = [] := by decide +kernel

/-! ### OOTXDecoder -/

theorem witness_MalformedBitResets : let s := withFrame 0x15 5 .data 0 6
    s.inService = false ∧ s.sensors[0]? = some (s.sensor 0) ∧ 2 ≤ (2 : BitVec 32).toNat := by decide +kernel
theorem witness_PreambleStep : let s := withFrame 0 17 .preamble 0 0
    s.inService = false ∧ s.sensors[0]? = some (s.sensor 0) ∧ (1 : BitVec 32).toNat ≤ 1 ∧
    (s.sensor 0).frame.mode = .preamble := by decide +kernel
theorem witness_WordBits : ∀ n ∈ [0, 15, 16], let s := withFrame 0x15 n .data 0 6
    s.inService = false ∧ s.sensors[0]? = some (s.sensor 0) ∧ (0 : BitVec 32).toNat ≤ 1 ∧
    (s.sensor 0).frame.mode ≠ .preamble ∧ (s.sensor 0).frame.nbits = n := by decide +kernel
theorem witness_LengthWord : ∀ n ∈ [252, 253], let s := withFrame (BitVec.ofNat 18 n) 16 .length 0 0
    s.inService = false ∧ s.sensors[0]? = some (s.sensor 0) ∧ (s.sensor 0).frame.mode = .length ∧
    (s.sensor 0).frame.nbits = 16 ∧ ((s.sensor 0).frame.acc.setWidth 16).toNat = n := by decide +kernel
theorem witness_DataWord : ∀ rx ∈ [2, 4], let s := withFrame 0x0304 16 .data rx 6
    s.inService = false ∧ s.sensors[0]? = some (s.sensor 0) ∧ (s.sensor 0).frame.mode = .data ∧
    (s.sensor 0).frame.nbits = 16 ∧ (s.sensor 0).frame.rxCount = rx := by decide +kernel
theorem witness_AckClearsComplete : let s := State.reset.setFrame 1 ⟨0, 0, .preamble, [], 4, 4, false, true⟩
    s.inService = false ∧ s.sensors[1]? = some (s.sensor 1) := by decide +kernel
theorem witness_RearmWritesShiftRegister : let s := withFrame 0x15 5 .data 2 6
    s.inService = false ∧ s.sensors[0]? = some (s.sensor 0) := by decide +kernel
/-- The shortest and the longest frame. -/
theorem witness_FrameRoundTrip : let f := (Sensor.afterReset fun _ => 0).frame
    f.Ok ∧ f.mode = .preamble ∧ ∀ p ∈ [(0, 2), (252, 128)],
      (BitVec.ofNat 16 p.1).toNat ≤ 252 ∧
      2 * (List.replicate p.2 (0xABCD : BitVec 16)).length = (BitVec.ofNat 16 p.1).toNat + 4 +
        ((BitVec.ofNat 16 p.1).toNat + 4) % 2 := ⟨frame_ok_idle, rfl, by decide +kernel⟩
theorem witness_FlippedSyncDiscardsFrame : ((withFrame 0 0 .data 2 6).sensor 0).frame.mode ≠ .preamble ∧
    ((withFrame 0 0 .data 2 6).sensor 0).frame.nbits = 0 := by decide +kernel
theorem witness_RollingPreambleMatch : let f := (Sensor.afterReset fun _ => 0).frame
    f.mode = .preamble ∧ f.acc = 0 ∧ f.nbits = 0 ∧
    ∀ p, p <+: preambleBits → p ≠ preambleBits → ¬ preambleBits <:+ p :=
  ⟨rfl, rfl, rfl, fun _ h hne hs => hne (h.eq_of_length_le hs.length_le)⟩
theorem witness_RetainedFrameIntact : let f := ((withFrame 0 0 .preamble 6 6).sensor 0).frame
    f.mode = .preamble ∧ f.acc = 0 ∧ f.nbits = 0 ∧ (List.replicate 34 false).length ≤ 34 ∧
    (List.replicate 51 true).length ≤ 51 := by decide +kernel

/-! ### PositionSolver -/

theorem witness_SetSourceWritesRecord : State.reset.inService = false := rfl
theorem witness_UpdateStoresAngle : let s := withSources crossing 0b0111
    s.inService = false ∧ s.sensors[1]? = some (s.sensor 1) ∧ 4 ≤ (4 : BitVec 8).toNat ∧ (2 : BitVec 8).toNat < 4 ∧
    (s.sensor 1).fix.fresh ||| (1#4 <<< (2 : BitVec 8).toNat) ≠ 0b1111#4 := by decide +kernel
theorem witness_FourthUpdateSolves : let s := withSources crossing 0b0111
    s.inService = false ∧ s.sensors[0]? = some (s.sensor 0) ∧ (3 : BitVec 8).toNat < 4 ∧
    (s.sensor 0).fix.fresh ||| (1#4 <<< (3 : BitVec 8).toNat) = 0b1111#4 := by decide +kernel
theorem witness_FreshnessGating : let s := withSources crossing 0
    s.inService = false ∧ s.sensors[0]? = some (s.sensor 0) ∧ (s.sensor 0).fix.fresh = 0 := by decide +kernel
/-- Either source missing, or both. -/
theorem witness_ComputeNeedsBothSources : ∀ p ∈ [(true, false), (false, true), (false, false)],
    let unsupplied := LightSource.afterReset fun _ => 0
    let s := withSources crossing 0
    let t := { s with src0 := if p.1 then s.src0 else unsupplied, src1 := if p.2 then s.src1 else unsupplied }
    t.inService = false ∧ 0 < t.sensors.length ∧ t.src0.valid = p.1 ∧ t.src1.valid = p.2 ∧
    (t.src0.valid = false ∨ t.src1.valid = false) := by decide +kernel
/-- V-SOL-2, near-singular, and V-SOL-1, solved. -/
theorem witness_ComputeSolvesOrFails : ∀ b : Bool, let s := withSources (if b then crossing else ⟨0, 0, 0, 0⟩) 0
    let a := (s.sensor 0).fix.angle
    let A := arithOf s.config.numerics
    let r0 := (planeNormalRay A a.slot0 a.slot1).getD default
    let r1 := (planeNormalRay A a.slot2 a.slot3).getD default
    let d0 := (rotate A s.src0.rot r0).getD default
    let d1 := (rotate A s.src1.rot r1).getD default
    let points := closestApproach A s.config.solveEps s.src0.origin d0 s.src1.origin d1
    s.inService = false ∧ s.sensors[0]? = some (s.sensor 0) ∧ s.src0.valid = true ∧ s.src1.valid = true ∧
    sourceFinite A s.src0 = true ∧ sourceFinite A s.src1 = true ∧ anglesFinite A a = true ∧
    s.config.rayLocal = .planeNormals ∧ planeNormalRay A a.slot0 a.slot1 = some r0 ∧
    planeNormalRay A a.slot2 a.slot3 = some r1 ∧ rotate A s.src0.rot r0 = some d0 ∧ rotate A s.src1.rot r1 = some d1 ∧
    (match points with
      | some none => !b
      | some (some (q0, q1)) => b && (midpointOf A q0 q1).isSome && (separation A q0 q1).isSome
      | none => false) = true := by decide +kernel
theorem witness_ComputeFrame : let s := withSources crossing 0
    s.inService = false ∧ s.sensors[1]? = some (s.sensor 1) := by decide +kernel
theorem witness_ComputeHasNoMemory : let s := withSources crossing 0
    (∃ t, exec (.solCompute 0) s = .next t) ∧ (∃ u, exec (.solCompute 1) s = .next u) ∧
    (s.sensor 0).fix.angle = (s.sensor 1).fix.angle ∧
    solve s.config s.src0 s.src1 (s.sensor 0).fix.angle ≠ .unspecified ∧
    (after (exec (.solCompute 0) s)).output.result = .computed true :=
  ⟨exists_next (by decide +kernel), exists_next (by decide +kernel), by decide +kernel, by decide +kernel,
    by decide +kernel⟩
theorem witness_ParallelLinesNeverSolve : Config.i48.numerics = .binary32 ∧ Config.i48.wellFormed = true := by
  decide +kernel
/-- Two skew lines along the x and the y axis, one unit apart: `denom` is 1, which is epsilon exactly, and is below an
epsilon of 2. -/
theorem witness_ClosestApproachMinimises : (0 : Rat) < 1 ∧
    (1 : Rat) ≤ (1 * 1 + 0 * 0 + 0 * 0) * (0 * 0 + 1 * 1 + 0 * 0) - (1 * 0 + 0 * 1 + 0 * 0) * (1 * 0 + 0 * 1 + 0 * 0) ∧
    (1 * 1 + 0 * 0 + 0 * 0) * (0 * 0 + 1 * 1 + 0 * 0) - (1 * 0 + 0 * 1 + 0 * 0) * (1 * 0 + 0 * 1 + 0 * 0) < (2 : Rat) ∧
    closestApproach (exactArith 3 some some some) 1 ⟨0, 0, 0⟩ ⟨1, 0, 0⟩ ⟨5, 7, 1⟩ ⟨0, 1, 0⟩ =
      some (some (⟨5, 0, 0⟩, ⟨5, 0, 1⟩)) ∧
    closestApproach (exactArith 3 some some some) 2 ⟨0, 0, 0⟩ ⟨1, 0, 0⟩ ⟨5, 7, 1⟩ ⟨0, 1, 0⟩ = some none := by
  decide +kernel
theorem witness_DefaultRayIsUnit : let sqrt : Rat → Option Rat := fun x => if x = 1 then some 1 else none
    (∀ x y, sqrt x = some y → 0 ≤ y ∧ y * y = x) ∧
    rayOfNormals (exactArith 3 sqrt some some) ⟨0, 0, 1⟩ ⟨1, 0, 0⟩ = some ⟨0, 1, 0⟩ ∧
    planeNormalRay (exactArith 3 sqrt (fun _ => some 0) (fun _ => some 1)) 0 0 = some ⟨0, 0, -1⟩ := by
  refine ⟨fun x y h => ?_, by decide +kernel⟩
  simp only at h
  by_cases hx : x = 1
  · rw [if_pos hx] at h; cases h; subst hx; decide +kernel
  · rw [if_neg hx] at h; cases h

end Sys2Proof.Tests
end

/-! The sync windows of an instantiation that meets 00_scope.md R10, and what R89 derives from them. -/

namespace Sys2Proof.Machine

section SyncWindows

variable {c : Config} {a b : SyncCode}

theorem inWindow_iff {tol : Nat} {code : SyncCode} {length : Nat} :
    inWindow tol code length = true ↔ code.center ≤ length + tol ∧ length ≤ code.center + tol :=
  decide_eq_true_iff

theorem windowsApart_iff : c.windowsApart a b = true ↔
    a.center + c.syncTol + 1 < b.center - c.syncTol ∨ b.center + c.syncTol + 1 < a.center - c.syncTol :=
  decide_eq_true_iff

theorem windowsApart_symm (h : c.windowsApart a b = true) : c.windowsApart b a = true :=
  windowsApart_iff.mpr (windowsApart_iff.mp h).symm

theorem pairwise_windowsApart_of_wellFormed (h : c.wellFormed = true) :
    c.sync.Pairwise fun a b => c.windowsApart a b = true := by
  have hsync : c.syncOk = true := by
    simp only [Config.wellFormed, Bool.and_eq_true] at h
    obtain ⟨⟨⟨⟨-, hsync⟩, -⟩, -⟩, -⟩ := h
    exact hsync
  simp only [Config.syncOk, Bool.and_eq_true, decide_eq_true_eq] at hsync
  obtain ⟨⟨-, hapart⟩, -⟩ := hsync
  exact hapart

/-- The table is checked in its own order only; the symmetry of `windowsApart` makes the order immaterial. -/
theorem windowsApart_of_wellFormed (h : c.wellFormed = true) (ha : a ∈ c.sync) (hb : b ∈ c.sync) (hne : a ≠ b) :
    c.windowsApart a b = true :=
  have : Std.Symm fun a b => c.windowsApart a b = true := ⟨fun _ _ => windowsApart_symm⟩
  (pairwise_windowsApart_of_wellFormed h).forall ha hb hne

theorem not_inWindow_of_windowsApart {length : Nat} (h : c.windowsApart a b = true)
    (ha : inWindow c.syncTol a length = true) : ¬ inWindow c.syncTol b length = true := by
  intro hb
  rw [inWindow_iff] at ha hb
  rcases windowsApart_iff.mp h with hab | hba
  · omega
  · omega

end SyncWindows

/-- Settles O31: the windows of two different codes are apart, so a length that lies in one lies outside the other. -/
theorem syncMatchUnique : Obligations.SyncMatchUnique := by
  intro c length a b hc ha hb hina hinb
  by_contra hne
  exact not_inWindow_of_windowsApart (windowsApart_of_wellFormed hc ha hb hne) hina hinb

end Sys2Proof.Machine

/-! The invariant on the data of one channel, one decoder and one sensor: what each of their operations keeps
(10_state.md R24 and R26, 42_ootx_decoder.md R187, 41_pulse_classifier.md R151, 43_position_solver.md R202). -/

namespace Sys2Proof.Machine

section ChannelInvariant

variable {w r : Nat} {loss : Bool} {c c' : Channel}

theorem Bank.isSome_get_set {n : Nat} {b : Bank n} (i : Nat) (v : BitVec n) {j : Nat} (h : (b.get j).isSome) :
    ((b.set i v).get j).isSome := by
  by_cases hji : j = i
  · subst hji; simp [Bank.get_set_self]
  · rwa [Bank.get_set_ne b v hji]

/-- A ring buffer holds fewer samples than the indices can count (00_scope.md R10). -/
theorem lt_two_pow_of_idxW (hw : 7 ≤ w) : 64 < 2 ^ w :=
  calc 64 < 2 ^ 7 := by decide
    _ ≤ 2 ^ w := Nat.pow_le_pow_right (by decide) hw

theorem idxSub_zero {a : Nat} (ha : a < 2 ^ w) : idxSub w a 0 = a := by
  rw [idxSub_eq ha (Nat.two_pow_pos w), if_pos (Nat.zero_le a), Nat.sub_zero]

theorem idxSub_idxAdd_one (hw : 7 ≤ w) {a k : Nat} (ha : a < 2 ^ w) (hk : 1 ≤ k) (hk' : k ≤ 64) :
    idxSub w (idxAdd w a 1) k = idxSub w a (k - 1) := by
  have hpow := lt_two_pow_of_idxW hw
  rw [idxSub_eq (idxAdd_lt w a 1) (by omega), idxSub_eq ha (by omega), idxAdd_eq ha (by omega)]
  split_ifs <;> omega

/-- One append brings at most one more unread sample. -/
theorem idxSub_idxAdd_one_le (hw : 7 ≤ w) {a b : Nat} (ha : a < 2 ^ w) (hb : b < 2 ^ w) :
    idxSub w (idxAdd w a 1) b ≤ idxSub w a b + 1 := by
  have hpow := lt_two_pow_of_idxW hw
  rw [idxSub_eq (idxAdd_lt w a 1) hb, idxSub_eq ha hb, idxAdd_eq ha (by omega)]
  split_ifs <;> omega

/-- After an append the newest sample is in the slot just written, and the one counted `k` before it was `k - 1` before. -/
theorem Channel.Ok.append (hw : 7 ≤ w) (h : c.Ok w) (ts : Timestamp) : (c.append w ts).Ok w := by
  cases hcl : c.claimed
  case false => rwa [Channel.append_unclaimed ts hcl]
  rw [Channel.append_claimed ts hcl]
  refine ⟨idxAdd_lt w _ _, h.read_lt, Memory.wf_set ts h.bank (slotOf_lt _), fun hf => ?_, fun k h1 h64 hgap => ?_⟩
  · simp [hcl] at hf
  · simp only [Channel.gap] at hgap ⊢
    rw [idxSub_idxAdd_one hw h.write_lt h1 h64]
    by_cases hk : k = 1
    · subst hk
      rw [Nat.sub_self, idxSub_zero h.write_lt, Bank.get_set_self]
      rfl
    · have hle := idxSub_idxAdd_one_le hw h.write_lt h.read_lt
      exact Bank.isSome_get_set _ _ (h.written (k - 1) (by omega) (by omega) (by simp only [Channel.gap]; omega))

theorem Channel.gap_pos (h : c.Ok w) (hne : c.writeIndex ≠ c.readIndex) : 1 ≤ c.gap w := by
  have hwr := h.write_lt
  have hrd := h.read_lt
  rw [Channel.gap, idxSub_eq hwr hrd]
  split_ifs <;> omega

/-- The sample a read delivers is one of the newest 64: with loss the 63rd newest, else the oldest. -/
theorem Channel.consume_index (hw : 7 ≤ w) (h : c.Ok w) (hc : c.consume w = some (r, loss, c')) :
    ∃ k, 1 ≤ k ∧ k ≤ 64 ∧ k ≤ c.gap w ∧ r = idxSub w c.writeIndex k := by
  obtain ⟨hne, -, hcase⟩ := Channel.consume_cases hc
  have hpow := lt_two_pow_of_idxW hw
  have hwr := h.write_lt
  have hrd := h.read_lt
  rcases hcase with ⟨hgap, -, rfl⟩ | ⟨hgap, -, rfl⟩
  · refine ⟨c.gap w, Channel.gap_pos h hne, hgap, le_rfl, ?_⟩
    have hlt : c.gap w < 2 ^ w := by omega
    rw [idxSub_eq hwr hlt, Channel.gap, idxSub_eq hwr hrd]
    split_ifs <;> omega
  · refine ⟨63, by decide, by decide, by omega, ?_⟩
    rw [Channel.recovered, idxSub_eq hwr (by omega), idxSub_eq hwr (by omega), idxAdd_eq (by split_ifs <;> omega) (by omega)]
    split_ifs <;> omega

/-- A read never delivers a slot nothing has written (10_state.md R26). -/
theorem Channel.consume_written (hw : 7 ≤ w) (h : c.Ok w) (hc : c.consume w = some (r, loss, c')) :
    (c.rb.get (slotOf r)).isSome := by
  obtain ⟨k, h1, h64, hgap, rfl⟩ := Channel.consume_index hw h hc
  exact h.written k h1 h64 hgap

/-- Past the sample counted `k` before the write index, `k - 1` are unread. -/
theorem idxSub_past (hw : 7 ≤ w) {a k : Nat} (ha : a < 2 ^ w) (h1 : 1 ≤ k) (hk : k ≤ 64) :
    idxSub w a (idxAdd w (idxSub w a k) 1) = k - 1 := by
  have hpow := lt_two_pow_of_idxW hw
  rw [idxSub_eq ha (idxAdd_lt w _ 1), idxAdd_eq (idxSub_lt w a k) (by omega), idxSub_eq ha (by omega)]
  split_ifs <;> omega

/-- A read only shortens what is unread. -/
theorem Channel.Ok.consume (hw : 7 ≤ w) (h : c.Ok w) (hc : c.consume w = some (r, loss, c')) : c'.Ok w := by
  obtain ⟨k, h1, h64, hgap, rfl⟩ := Channel.consume_index hw h hc
  obtain ⟨hne, rfl, -⟩ := Channel.consume_cases hc
  refine ⟨h.write_lt, idxAdd_lt w _ _, h.bank, fun hcl => ?_, fun j hj1 hj64 hjgap => ?_⟩
  · obtain ⟨hw0, hr0⟩ := h.unclaimed hcl
    exact absurd (hw0.trans hr0.symm) hne
  · have hpast : j ≤ k - 1 := by
      rw [← idxSub_past hw h.write_lt h1 h64]
      exact hjgap
    exact h.written j hj1 hj64 (by omega)

/-- A channel whose indices are both zero has nothing unread, whatever its slots hold. -/
theorem Channel.ok_of_indices_zero (hbank : Memory.wf 64 c.rb) (hwrite : c.writeIndex = 0) (hread : c.readIndex = 0) :
    c.Ok w := by
  have hpos := Nat.two_pow_pos w
  refine ⟨by omega, by omega, hbank, fun _ => ⟨hwrite, hread⟩, fun k h1 _ hgap => ?_⟩
  rw [Channel.gap, hwrite, hread, idxSub_self w hpos] at hgap
  omega

theorem Channel.afterReset_ok (w : Nat) (pol : Polarity) : (Channel.afterReset pol).Ok w :=
  Channel.ok_of_indices_zero (Memory.wf_nil 64) rfl rfl

end ChannelInvariant

section FrameInvariant

variable {f : FrameState}

/-- The reset of R171 keeps the buffer and its count. -/
theorem FrameState.Ok.rearm (h : f.Ok) : f.rearm.Ok where
  acc_lt := by simp
  preamble_bits := by simp
  word_bits := by simp
  length_le := h.length_le
  rx_le := h.rx_le
  data := by simp
  bank := h.bank
  written := h.written

theorem FrameState.shift_acc_lt (h : f.acc.toNat < 2 ^ f.nbits) (b : Bool) :
    (f.shift b).acc.toNat < 2 ^ (f.nbits + 1) := by
  have hshift : (f.acc <<< 1).toNat < 2 ^ (f.nbits + 1) :=
    calc (f.acc <<< 1).toNat = f.acc.toNat * 2 % 2 ^ 18 := by simp [Nat.shiftLeft_eq]
      _ ≤ f.acc.toNat * 2 := Nat.mod_le _ _
      _ < 2 ^ (f.nbits + 1) := by omega
  have hbit : ((BitVec.ofBool b).setWidth 18).toNat < 2 ^ (f.nbits + 1) :=
    calc ((BitVec.ofBool b).setWidth 18).toNat < 2 := by cases b <;> decide
      _ ≤ 2 ^ (f.nbits + 1) := Nat.pow_le_pow_right Nat.two_pos (Nat.le_add_left 1 f.nbits)
  rw [FrameState.shift, BitVec.toNat_or]
  exact Nat.or_lt_two_pow hshift hbit

/-- R173: the bit completes a window that matches, completes one that does not, or only joins the window. -/
theorem FrameState.preambleStep_cases (f : FrameState) (b : Bool) :
    (f.nbits + 1 = 18 ∧ (f.shift b).acc = 1 ∧
      f.preambleStep b = { f with mode := .length, acc := 0, nbits := 0 }) ∨
    (f.nbits + 1 = 18 ∧ (f.shift b).acc ≠ 1 ∧
      f.preambleStep b = { f with acc := (f.shift b).acc &&& 0x1FFFF, nbits := 17 }) ∨
    (f.nbits + 1 ≠ 18 ∧ f.preambleStep b = f.shift b) := by
  by_cases hfull : (f.shift b).nbits = 18
  · by_cases hmatch : (f.shift b).acc = 1
    · exact .inl ⟨hfull, hmatch, by rw [preambleStep, if_pos hfull, if_pos hmatch]; rfl⟩
    · exact .inr (.inl ⟨hfull, hmatch, by rw [preambleStep, if_pos hfull, if_neg hmatch]; rfl⟩)
  · exact .inr (.inr ⟨hfull, if_neg hfull⟩)

/-- At most 17 bits stay after a preamble step. -/
theorem FrameState.Ok.preambleStep (h : f.Ok) (hmode : f.mode = .preamble) (b : Bool) : (f.preambleStep b).Ok := by
  have hbits := h.preamble_bits hmode
  rcases f.preambleStep_cases b with ⟨-, -, heq⟩ | ⟨-, -, heq⟩ | ⟨hfull, heq⟩
  all_goals rw [heq]
  · exact ⟨by simp, by simp, by simp, h.length_le, h.rx_le, by simp, h.bank, h.written⟩
  · refine ⟨?_, by simp, by simp [hmode], h.length_le, h.rx_le, by simp [hmode], h.bank, h.written⟩
    calc ((f.shift b).acc &&& 0x1FFFF).toNat ≤ 0x1FFFF := Nat.and_le_right
      _ < 2 ^ 17 := by decide
  · exact ⟨FrameState.shift_acc_lt h.acc_lt b, by simp; omega, by simp [hmode], h.length_le, h.rx_le, by simp [hmode],
      h.bank, h.written⟩

/-- R175: a bit before the seventeenth of a word is only shifted in. -/
theorem FrameState.Ok.shift (h : f.Ok) (hmode : f.mode ≠ .preamble) (hbits : f.nbits < 16) (b : Bool) :
    (f.shift b).Ok where
  acc_lt := FrameState.shift_acc_lt h.acc_lt b
  preamble_bits := fun hp => absurd hp hmode
  word_bits := fun _ => by simp; omega
  length_le := h.length_le
  rx_le := h.rx_le
  data := h.data
  bank := h.bank
  written := h.written

theorem frameTotal_even (word : BitVec 16) : frameTotal word % 2 = 0 := by
  unfold frameTotal framePad; omega

theorem four_le_frameTotal (word : BitVec 16) : 4 ≤ frameTotal word := by
  unfold frameTotal; omega

/-- R176: an accepted length word starts the data of a frame with an empty count. -/
theorem FrameState.Ok.startData (h : f.Ok) {word : BitVec 16} (hfits : frameTotal word ≤ 256) (pad : Bool) :
    FrameState.Ok { f with
      length := frameTotal word, padding := pad, rxCount := 0, mode := .data, acc := 0, nbits := 0 } where
  acc_lt := by simp
  preamble_bits := by simp
  word_bits := by simp
  length_le := hfits
  rx_le := by simp
  data := fun _ => ⟨frameTotal_even word, four_le_frameTotal word, rfl,
    Nat.lt_of_lt_of_le (Nat.succ_pos 3) (four_le_frameTotal word)⟩
  bank := h.bank
  written := by simp

/-- Both bytes of a data word land below 256 and are counted (R179). -/
theorem FrameState.Ok.dataWord (h : f.Ok) (hmode : f.mode = .data) (word : BitVec 16) :
    FrameState.Ok ({ f with acc := 0, nbits := 0 : FrameState }.dataWord word) := by
  obtain ⟨hlen, -, hrx, hlt⟩ := h.data hmode
  have hle := h.length_le
  have hbank : Memory.wf 256
      ((f.ob.set f.rxCount (word.extractLsb' 8 8)).set (f.rxCount + 1) (word.extractLsb' 0 8)) :=
    Memory.wf_set _ (Memory.wf_set _ h.bank (by omega)) (by omega)
  have hwritten : ∀ j, j < f.rxCount + 2 →
      (((f.ob.set f.rxCount (word.extractLsb' 8 8)).set (f.rxCount + 1) (word.extractLsb' 0 8)).get j).isSome := by
    intro j hj
    by_cases hlow : j = f.rxCount + 1
    · subst hlow; simp [Bank.get_set_self]
    refine Bank.isSome_get_set _ _ ?_
    by_cases hhigh : j = f.rxCount
    · subst hhigh; simp [Bank.get_set_self]
    · exact Bank.isSome_get_set _ _ (h.written j (by omega))
  unfold FrameState.dataWord FrameState.storeWord
  dsimp only
  split_ifs with hdone
  · exact ⟨by simp, by simp, by simp, hle, by simp only [FrameState.rearm]; omega, nofun, hbank, hwritten⟩
  · exact ⟨by simp, by simp, by simp, hle, by simp only; omega,
      fun hm => ⟨hlen, (h.data hm).2.1, by simp only; omega, by simp only; omega⟩, hbank, hwritten⟩

/-- R187: OOTX.ADD keeps the invariants of the decoder. -/
theorem FrameState.Ok.add (h : f.Ok) (i : Nat) (bit : BitVec 32) : (f.add i bit).1.Ok := by
  rcases f.add_cases i bit with ⟨-, heq⟩ | ⟨-, hmode, heq⟩ | ⟨-, hmode, hbits, heq⟩ | ⟨-, -, -, -, heq⟩ |
    ⟨-, -, -, -, -, heq⟩ | ⟨-, -, -, -, hfits, heq⟩ | ⟨-, hmode, -, -, heq⟩
  all_goals rw [heq]
  · exact h.rearm
  · exact h.preambleStep hmode _
  · exact h.shift hmode hbits _
  · exact h.rearm
  · exact h.rearm
  · exact h.startData hfits _
  · exact h.dataWord hmode _

/-- R182: the completion flag is no part of the invariant. -/
theorem FrameState.Ok.setComplete (h : f.Ok) (b : Bool) : FrameState.Ok { f with complete := b } :=
  ⟨h.acc_lt, h.preamble_bits, h.word_bits, h.length_le, h.rx_le, h.data, h.bank, h.written⟩

end FrameInvariant

section DecodeInvariant

variable {d : DecodeState}

theorem DecodeState.Ok.setLastRise (h : d.Ok) (ts : Timestamp) : DecodeState.Ok { d with lastRise := ts } := h

theorem DecodeState.Ok.setLastFall (h : d.Ok) (ts : Timestamp) : DecodeState.Ok { d with lastFall := ts } := h

theorem DecodeState.afterSweep_ok (d : DecodeState) : d.afterSweep.Ok := fun hid => absurd rfl hid

theorem DecodeState.afterGuard_ok (d : DecodeState) : d.afterGuard.Ok := fun hid => absurd rfl hid

/-- R148 locks the id only on a skip flag already set, in a cycle without a sweep. -/
theorem DecodeState.Ok.afterNotSkip (h : d.Ok) (hsweep : d.gotSweep = false) (rotor : Bool) :
    (d.afterNotSkip rotor).Ok := by
  intro hid
  cases hskip : d.gotSkip
  · have hlocked : d.lhId ≠ .unknown := by simpa [DecodeState.afterNotSkip, hskip] using hid
    obtain ⟨hset, -, -⟩ := h hlocked
    simp [hskip] at hset
  · exact ⟨hskip, rfl, hsweep⟩

/-- R149 locks the id only on a not-skip flag already set, in a cycle without a sweep. -/
theorem DecodeState.Ok.afterSkip (h : d.Ok) (hsweep : d.gotSweep = false) : d.afterSkip.Ok := by
  intro hid
  cases hnot : d.gotNotSkip
  · have hlocked : d.lhId ≠ .unknown := by simpa [DecodeState.afterSkip, hnot] using hid
    obtain ⟨-, hset, -⟩ := h hlocked
    simp [hnot] at hset
  · exact ⟨rfl, hnot, hsweep⟩

end DecodeInvariant

theorem Sensor.afterReset_ok (v : Nat → FloatWord) : (Sensor.afterReset v).Ok where
  decode := fun hid => absurd rfl hid
  frame := by constructor <;> simp [Sensor.afterReset, Memory.wf]
  fix := rfl

end Sys2Proof.Machine

/-! What the two agents leave of each other (20_memory.md R67, 10_state.md R25): the frame of an operation of POLL, of an
operation of IRQ, and of an operation on one sensor. -/

namespace Sys2Proof.Machine

/-- From `s` to `t` the consumer left what the producer owns, the claims, the parameters and the number of sensors. -/
structure KeepsProducer (s t : State) : Prop where
  ovfCounter : t.ovfCounter = s.ovfCounter
  ovfBusy : t.ovfBusy = s.ovfBusy
  buffers : t.channels.map (fun c => (c.writeIndex, c.rb)) = s.channels.map (fun c => (c.writeIndex, c.rb))
  claims : t.channels.map (fun c => (c.claimed, c.polarity)) = s.channels.map (fun c => (c.claimed, c.polarity))
  config : t.config = s.config
  sensorCount : t.sensors.length = s.sensors.length

/-- From `s` to `t` the producer left what the consumer owns, the parameters and the environment's queues. -/
structure KeepsConsumer (s t : State) : Prop where
  sensors : t.sensors = s.sensors
  src0 : t.src0 = s.src0
  src1 : t.src1 = s.src1
  config : t.config = s.config
  draws : t.draws = s.draws
  inbox : t.inbox = s.inbox
  interleave : t.interleave = s.interleave
  reads : t.channels.map (fun c => (c.readIndex, c.claimed, c.polarity)) =
    s.channels.map (fun c => (c.readIndex, c.claimed, c.polarity))

/-- From `s` to `t` at most the registers of sensor `i`, the draws and the output were written. -/
def WritesSensor (i : Nat) (s t : State) : Prop :=
  ∃ sn d o, t = { s with sensors := s.sensors.set i sn, draws := d, output := o }

section Producer

variable {s t u : State}

theorem KeepsConsumer.trans (hst : KeepsConsumer s t) (htu : KeepsConsumer t u) : KeepsConsumer s u where
  sensors := htu.sensors.trans hst.sensors
  src0 := htu.src0.trans hst.src0
  src1 := htu.src1.trans hst.src1
  config := htu.config.trans hst.config
  draws := htu.draws.trans hst.draws
  inbox := htu.inbox.trans hst.inbox
  interleave := htu.interleave.trans hst.interleave
  reads := htu.reads.trans hst.reads

theorem KeepsConsumer.refl (s : State) : KeepsConsumer s s := ⟨rfl, rfl, rfl, rfl, rfl, rfl, rfl, rfl⟩

theorem keepsConsumer_clearOutput (s : State) : KeepsConsumer s s.clearOutput := ⟨rfl, rfl, rfl, rfl, rfl, rfl, rfl, rfl⟩

theorem keepsConsumer_overflow (s : State) : KeepsConsumer s s.overflow := ⟨rfl, rfl, rfl, rfl, rfl, rfl, rfl, rfl⟩

theorem keepsConsumer_endService (s : State) : KeepsConsumer s s.endService := ⟨rfl, rfl, rfl, rfl, rfl, rfl, rfl, rfl⟩

/-- A capture writes the slot and the write index of its channel only. -/
theorem keepsConsumer_capture {ch : Nat} {c : Channel} (low : BitVec 16) (hc : s.channels[ch]? = some c) :
    KeepsConsumer s (s.capture ch c low) :=
  ⟨rfl, rfl, rfl, rfl, rfl, rfl, rfl,
    map_set_same _ hc (by rw [Channel.append_readIndex, Channel.append_claim, Channel.append_polarity])⟩

theorem keepsConsumer_runServices {l : List Service} (h : s.runServices l = some t) : KeepsConsumer s t :=
  State.runServices_induct (P := KeepsConsumer s)
    (fun u hu => hu.trans (keepsConsumer_overflow u))
    (fun _ _ _ low hu hc => hu.trans (keepsConsumer_capture low hc))
    (fun u hu => hu.trans (keepsConsumer_endService u))
    l s t (KeepsConsumer.refl s) h

/-- 20_memory.md R67 for the three operations of the interrupt context. -/
theorem exec_keepsConsumer {i : Instr} (hirq : isIrq i = true) (h : exec i s = .next t) : KeepsConsumer s t := by
  cases i
  case ecbTov =>
    obtain ⟨-, rfl⟩ := execEcbTov_next.mp h
    exact (keepsConsumer_clearOutput s).trans (keepsConsumer_overflow _)
  case ecbCap ch low =>
    obtain ⟨c, hc, rfl⟩ := execEcbCap_next.mp h
    exact (keepsConsumer_clearOutput s).trans (keepsConsumer_capture low hc)
  case ecbIret =>
    obtain rfl := execEcbIret_next.mp h
    exact (keepsConsumer_clearOutput s).trans (keepsConsumer_endService _)
  all_goals cases hirq

end Producer

section OneSensor

variable {s t u : State} {i : Nat}

theorem WritesSensor.trans (hst : WritesSensor i s t) (htu : WritesSensor i t u) : WritesSensor i s u := by
  obtain ⟨_, _, _, rfl⟩ := hst
  obtain ⟨sn, d, o, rfl⟩ := htu
  exact ⟨sn, d, o, by simp only [List.set_set]⟩

theorem WritesSensor.sensors_length (h : WritesSensor i s t) : t.sensors.length = s.sensors.length := by
  obtain ⟨sn, d, o, rfl⟩ := h
  exact List.length_set

theorem WritesSensor.keepsProducer (h : WritesSensor i s t) : KeepsProducer s t := by
  have hcount := h.sensors_length
  obtain ⟨sn, d, o, rfl⟩ := h
  exact ⟨rfl, rfl, rfl, rfl, rfl, hcount⟩

theorem writesSensor_setSensor (s : State) (i : Nat) (sn : Sensor) : WritesSensor i s (s.setSensor i sn) :=
  ⟨sn, s.draws, s.output, rfl⟩

/-- An existing sensor written back as it is. -/
theorem writesSensor_of_draws_output (hi : i < s.sensors.length) (d : Nat) (o : Output) :
    WritesSensor i s { s with draws := d, output := o } :=
  ⟨s.sensor i, d, o, by rw [set_same (s.getElem?_sensor hi)]⟩

theorem writesSensor_clearOutput (hi : i < s.sensors.length) : WritesSensor i s s.clearOutput :=
  writesSensor_of_draws_output hi s.draws _

theorem writesSensor_raise (hi : i < s.sensors.length) (c : Condition) : WritesSensor i s (s.raise c) :=
  writesSensor_of_draws_output hi s.draws _

theorem writesSensor_ootxAdd (s : State) (i : Nat) (bit : BitVec 32) : WritesSensor i s (s.ootxAdd i bit) :=
  ⟨_, s.draws, _, s.ootxAdd_eq i bit⟩

theorem writesSensor_compute (hi : i < s.sensors.length) : WritesSensor i s (s.compute i).2 := by
  obtain ⟨pos, dist, d, heq⟩ := s.compute_frame i hi
  exact ⟨_, d, _, heq⟩

theorem writesSensor_update (hi : i < s.sensors.length) (slot : Nat) (angle : FloatWord) :
    WritesSensor i s (s.update i slot angle).2 := by
  obtain ⟨fix, d, conds, heq⟩ := s.update_frame i slot angle hi
  exact ⟨_, d, _, heq⟩

theorem writesSensor_sweepStep (hi : i < s.sensors.length) (obs : Observation) :
    WritesSensor i s (s.sweepStep i obs).2 := by
  rcases s.sweepStep_cases i obs with ⟨-, heq⟩ | ⟨-, angle, n, -, heq⟩
  · rw [heq]
    exact writesSensor_setSensor _ _ _
  · rw [heq]
    exact (writesSensor_of_draws_output hi n s.output).trans
      ((writesSensor_update (s := { s with draws := n }) hi _ _).trans (writesSensor_setSensor _ _ _))

theorem writesSensor_syncStep (hi : i < s.sensors.length) (obs : Observation) :
    WritesSensor i s (s.syncStep i obs).2 := by
  rcases s.syncStep_cases i obs with ⟨-, heq⟩ | ⟨bits, -, ⟨-, heq⟩ | ⟨-, -, heq⟩ | ⟨-, -, heq⟩⟩
  all_goals rw [heq]
  · exact writesSensor_raise hi _
  · exact writesSensor_setSensor _ _ _
  · exact writesSensor_setSensor _ _ _
  · exact (writesSensor_setSensor s i _).trans (writesSensor_ootxAdd _ _ _)

/-- The guard step by cases (41_pulse_classifier.md R146, R156). -/
theorem State.guardStep_cases (s : State) (i : Nat) (obs : Observation) :
    let t := s.setDecode i (s.sensor i).decode.afterGuard
    (s.config.guardFallthrough = true ∧ s.guardStep i obs = t.syncStep i obs) ∨
    (s.config.guardFallthrough = false ∧ s.guardStep i obs = (.guard obs, t.raise (.protocolResync i))) := by
  intro t
  cases hg : s.config.guardFallthrough
  · exact .inr ⟨rfl, by simp [State.guardStep, hg, t]⟩
  · exact .inl ⟨rfl, by simp [State.guardStep, hg, t]⟩

theorem writesSensor_guardStep (hi : i < s.sensors.length) (obs : Observation) :
    WritesSensor i s (s.guardStep i obs).2 := by
  have hset := writesSensor_setSensor s i { s.sensor i with decode := (s.sensor i).decode.afterGuard }
  have hi' := hset.sensors_length ▸ hi
  rcases s.guardStep_cases i obs with ⟨-, heq⟩ | ⟨-, heq⟩
  all_goals rw [heq]
  · exact hset.trans (writesSensor_syncStep hi' obs)
  · exact hset.trans (writesSensor_raise hi' _)

/-- The pulse at `rise` as the sensor measures it (41_pulse_classifier.md R143). -/
def DecodeState.observe (d : DecodeState) (rise : Timestamp) : Observation :=
  ⟨rise, rise - d.lastFall, rise - d.lastRise⟩

/-- PCL.PULSE by cases: after `last_rise` is stored, the sweep, the guard or the sync step (41_pulse_classifier.md R142). -/
theorem State.pulse_cases (s : State) (i : Nat) (rise : Timestamp) :
    let d := (s.sensor i).decode
    let obs := d.observe rise
    let t := s.setDecode i { d with lastRise := rise }
    (isSweep s.config obs.length = true ∧ s.pulse i rise = t.sweepStep i obs) ∨
    (isSweep s.config obs.length = false ∧ isStale s.config obs.duty d = true ∧
      s.pulse i rise = t.guardStep i obs) ∨
    (isSweep s.config obs.length = false ∧ isStale s.config obs.duty d = false ∧
      s.pulse i rise = t.syncStep i obs) := by
  intro d obs t
  have heq : s.pulse i rise =
      if isSweep s.config obs.length then t.sweepStep i obs
      else if isStale s.config obs.duty d then t.guardStep i obs
      else t.syncStep i obs := rfl
  cases hsweep : isSweep s.config obs.length
  · cases hstale : isStale s.config obs.duty d
    · exact .inr (.inr ⟨rfl, rfl, by simp [heq, hsweep, hstale]⟩)
    · exact .inr (.inl ⟨rfl, rfl, by simp [heq, hsweep, hstale]⟩)
  · exact .inl ⟨rfl, by simp [heq, hsweep]⟩

theorem writesSensor_pulse (hi : i < s.sensors.length) (rise : Timestamp) : WritesSensor i s (s.pulse i rise).2 := by
  have hset := writesSensor_setSensor s i
    { s.sensor i with decode := { (s.sensor i).decode with lastRise := rise } }
  have hi' := hset.sensors_length ▸ hi
  rcases s.pulse_cases i rise with ⟨-, heq⟩ | ⟨-, -, heq⟩ | ⟨-, -, heq⟩
  all_goals rw [heq]
  · exact hset.trans (writesSensor_sweepStep hi' _)
  · exact hset.trans (writesSensor_guardStep hi' _)
  · exact hset.trans (writesSensor_syncStep hi' _)

end OneSensor

section Consumer

variable {s t u : State}

theorem KeepsProducer.trans (hst : KeepsProducer s t) (htu : KeepsProducer t u) : KeepsProducer s u where
  ovfCounter := htu.ovfCounter.trans hst.ovfCounter
  ovfBusy := htu.ovfBusy.trans hst.ovfBusy
  buffers := htu.buffers.trans hst.buffers
  claims := htu.claims.trans hst.claims
  config := htu.config.trans hst.config
  sensorCount := htu.sensorCount.trans hst.sensorCount

theorem KeepsProducer.refl (s : State) : KeepsProducer s s := ⟨rfl, rfl, rfl, rfl, rfl, rfl⟩

theorem keepsProducer_clearOutput (s : State) : KeepsProducer s s.clearOutput := ⟨rfl, rfl, rfl, rfl, rfl, rfl⟩

theorem keepsProducer_returns (s : State) (r : Result) : KeepsProducer s (s.returns r) := ⟨rfl, rfl, rfl, rfl, rfl, rfl⟩

theorem keepsProducer_setSource (s : State) (k : BitVec 1) (l : LightSource) : KeepsProducer s (s.setSource k l) := by
  constructor <;> simp

/-- A read moves the read index of its channel only. -/
theorem keepsProducer_readChannel {ch : Nat} {c : Channel} (hc : s.channels[ch]? = some c) :
    KeepsProducer s (s.readChannel ch c).2 := by
  rcases s.readChannel_frame ch c with heq | ⟨n, d, o, heq⟩
  all_goals rw [heq]
  · exact KeepsProducer.refl s
  · exact ⟨rfl, rfl, map_set_same _ hc rfl, map_set_same _ hc rfl, rfl, rfl⟩

theorem keepsProducer_afterFalling (i : Nat) (x : ReadResult × State) : KeepsProducer x.2 (State.afterFalling i x) := by
  unfold State.afterFalling
  split
  · exact (writesSensor_setSensor x.2 i _).keepsProducer
  · exact KeepsProducer.refl _

theorem keepsProducer_afterRising {i : Nat} (falling : ReadResult) {x : ReadResult × State}
    (hi : i < x.2.sensors.length) : KeepsProducer x.2 (State.afterRising i falling x) := by
  unfold State.afterRising
  split
  · exact (writesSensor_pulse hi _).keepsProducer.trans (keepsProducer_returns _ _)
  · exact keepsProducer_returns _ _

/-- 20_memory.md R67 for the operations of POLL on one channel, one sensor or one source. -/
theorem exec_keepsProducer {i : Instr} (hirq : isIrq i = false) (hreset : i ≠ .reset)
    (hbegin : ∀ pin pol, i ≠ .ecbBegin pin pol) (hpoll : ∀ sensor, i ≠ .pclPoll sensor)
    (h : exec i s = .next t) : KeepsProducer s t := by
  refine (keepsProducer_clearOutput s).trans ?_
  cases i
  case reset => exact absurd rfl hreset
  case ecbBegin pin pol => exact absurd rfl (hbegin pin pol)
  case pclPoll i => exact absurd rfl (hpoll i)
  case ecbRead ch =>
    obtain ⟨-, c, hc, rfl⟩ := execEcbRead_next.mp h
    exact (keepsProducer_readChannel (s := s.clearOutput) hc).trans (keepsProducer_returns _ _)
  case pclPulse i rise =>
    obtain ⟨-, hi, rfl⟩ := execPclPulse_next.mp h
    exact (writesSensor_pulse (s := s.clearOutput) hi rise).keepsProducer.trans (keepsProducer_returns _ _)
  case ootxAdd i bit =>
    obtain ⟨-, -, rfl⟩ := execOotxAdd_next.mp h
    exact (writesSensor_ootxAdd _ i bit).keepsProducer
  case ootxAck i =>
    obtain ⟨-, -, rfl⟩ := execOotxAck_next.mp h
    exact (writesSensor_setSensor _ i _).keepsProducer
  case ootxRst i =>
    obtain ⟨-, -, rfl⟩ := execOotxRst_next.mp h
    exact (writesSensor_setSensor _ i _).keepsProducer
  case solSetsrc k rot origin =>
    obtain ⟨-, rfl⟩ := execSolSetsrc_next.mp h
    exact keepsProducer_setSource _ _ _
  case solUpdate i slot angle =>
    obtain ⟨-, hi, rfl⟩ := execSolUpdate_next.mp h
    exact (writesSensor_update (s := s.clearOutput) hi _ _).keepsProducer.trans (keepsProducer_returns _ _)
  case solCompute i =>
    obtain ⟨-, hi, rfl⟩ := execSolCompute_next.mp h
    exact (writesSensor_compute (s := s.clearOutput) hi).keepsProducer.trans (keepsProducer_returns _ _)
  all_goals cases hirq

end Consumer

section Parameters

variable {s t : State}

/-- The services of an interleave point leave the sensors and the parameters. -/
theorem interleavePoint_sensors_config (h : s.interleavePoint = some t) :
    t.sensors = s.sensors ∧ t.config = s.config := by
  have hkeep := keepsConsumer_runServices h
  exact ⟨hkeep.sensors, hkeep.config⟩

/-- Neither the phases of a poll nor the services between them write the parameters. -/
theorem poll_config {i : Nat} {w : Wiring} (hi : i < s.sensors.length) (h : s.poll i w = some t) :
    t.config = s.config := by
  obtain ⟨cf, v, cr, hcf, hv, hcr, rfl⟩ := State.poll_eq_some.mp h
  have hfall := (keepsProducer_readChannel hcf).trans (keepsProducer_afterFalling i _)
  obtain ⟨hsensors, hconfig⟩ := interleavePoint_sensors_config hv
  have hread := keepsProducer_readChannel hcr
  have hi' : i < (v.readChannel w.riseCh cr).2.sensors.length := by
    rw [hread.sensorCount, hsensors, hfall.sensorCount]
    exact hi
  rw [(hread.trans (keepsProducer_afterRising _ hi')).config, hconfig, hfall.config]

theorem execEcbBegin_config {pin : Nat} {pol : Polarity} (h : execEcbBegin pin pol s = .next t) :
    t.config = s.config := by
  obtain ⟨-, ch, c, -, -, rfl⟩ := execEcbBegin_next.mp h
  split <;> rfl

/-- 10_state.md R35: the parameters are an argument of the step. -/
theorem exec_config {i : Instr} (h : exec i s = .next t) : t.config = s.config := by
  by_cases hirq : isIrq i = true
  · exact (exec_keepsConsumer hirq h).config
  by_cases hreset : i = .reset
  · subst hreset
    obtain ⟨-, rfl⟩ := execReset_next.mp h
    rfl
  by_cases hbegin : ∃ pin pol, i = .ecbBegin pin pol
  · obtain ⟨pin, pol, rfl⟩ := hbegin
    exact execEcbBegin_config h
  by_cases hpoll : ∃ sensor, i = .pclPoll sensor
  · obtain ⟨sensor, rfl⟩ := hpoll
    obtain ⟨-, hi, w, -, hp⟩ := execPclPoll_next.mp h
    exact poll_config (s := s.clearOutput) hi hp
  exact (exec_keepsProducer (by simpa using hirq) hreset (fun pin pol he => hbegin ⟨pin, pol, he⟩)
    (fun sensor he => hpoll ⟨sensor, he⟩) h).config

/-- Every step holds the state, or takes the oldest event and runs the operation it decodes to. -/
theorem step_cases (h : step s = .next t) :
    (s.inbox = [] ∧ t = s) ∨
    ∃ e rest i, s.inbox = e :: rest ∧ decode e = .ok i ∧ exec i { s with inbox := rest } = .next t := by
  cases hin : s.inbox with
  | nil => exact .inl ⟨rfl, by simpa [step, hin] using h.symm⟩
  | cons e rest =>
    cases hd : decode e with
    | error r => simp [step, hin, hd] at h
    | ok i => exact .inr ⟨e, rest, i, rfl, hd, by simpa [step, hin, hd] using h⟩

end Parameters

/-- Settles O10: the frame of the producer. -/
theorem producerLeavesConsumerState : Obligations.ProducerLeavesConsumerState := by
  intro s t i hirq h
  obtain ⟨hsensors, hsrc0, hsrc1, hconfig, hdraws, hinbox, hinterleave, hreads⟩ := exec_keepsConsumer hirq h
  exact ⟨hsensors, hsrc0, hsrc1, hconfig, hdraws, hinbox, hinterleave, hreads⟩

/-- Settles O9: the frame of the consumer. -/
theorem consumerLeavesProducerState : Obligations.ConsumerLeavesProducerState := by
  intro s t i hirq hreset hbegin hpoll h
  have hkeep := exec_keepsProducer hirq hreset hbegin hpoll h
  exact ⟨hkeep.ovfCounter, hkeep.ovfBusy, hkeep.buffers, hkeep.claims⟩

/-- Settles O8: a step is an operation or nothing, and every operation keeps the parameters. -/
theorem stepKeepsParameters : Obligations.StepKeepsParameters := by
  intro s t h
  rcases step_cases h with ⟨-, rfl⟩ | ⟨e, rest, i, -, -, hexec⟩
  · rfl
  · exact exec_config (s := { s with inbox := rest }) hexec

end Sys2Proof.Machine

/-! The invariant of the machine: it holds after reset, and every operation keeps it. -/

namespace Sys2Proof.Machine

section StateInvariant

variable {s t : State} {i : Nat}

/-- The invariant reads only the parameters, the registers and whether a service is open. -/
theorem State.Ok.of_registers (h : s.Ok) (hconfig : t.config = s.config) (hchannels : t.channels = s.channels)
    (hsensors : t.sensors = s.sensors) (hbusy : t.ovfBusy = true → t.inService = true) : t.Ok where
  config := hconfig ▸ h.config
  nChannels := by rw [hchannels, hconfig]; exact h.nChannels
  nSensors := by rw [hsensors, hconfig]; exact h.nSensors
  busy := hbusy
  channels := by rw [hchannels, hconfig]; exact h.channels
  sensors := by rw [hsensors]; exact h.sensors

theorem State.Ok.idxW (h : s.Ok) : 7 ≤ s.config.idxW := by
  have hwf := h.config
  simp only [Config.wellFormed, Config.idxOk, Bool.and_eq_true, decide_eq_true_eq] at hwf
  obtain ⟨⟨-, hidx⟩, -⟩ := hwf
  exact hidx

theorem State.Ok.channel (h : s.Ok) {ch : Nat} {c : Channel} (hc : s.channels[ch]? = some c) : c.Ok s.config.idxW :=
  h.channels c (List.mem_of_getElem? hc)

theorem State.Ok.sensor (h : s.Ok) (hi : i < s.sensors.length) : (s.sensor i).Ok := h.sensors _ (s.sensor_mem hi)

/-! ## The updates of the state -/

theorem State.Ok.clearOutput (h : s.Ok) : s.clearOutput.Ok := h.of_registers rfl rfl rfl h.busy

theorem State.Ok.raise (h : s.Ok) (c : Condition) : (s.raise c).Ok := h.of_registers rfl rfl rfl h.busy

theorem State.Ok.returns (h : s.Ok) (r : Result) : (s.returns r).Ok := h.of_registers rfl rfl rfl h.busy

theorem State.Ok.setSource (h : s.Ok) (k : BitVec 1) (l : LightSource) : (s.setSource k l).Ok :=
  h.of_registers (by simp) (by simp) (by simp) (by simpa using h.busy)

theorem State.Ok.setChannel (h : s.Ok) (ch : Nat) {c : Channel} (hc : c.Ok s.config.idxW) : (s.setChannel ch c).Ok where
  config := h.config
  nChannels := by simpa using h.nChannels
  nSensors := h.nSensors
  busy := h.busy
  channels := fun d hd => (List.mem_or_eq_of_mem_set hd).elim (h.channels d) (· ▸ hc)
  sensors := h.sensors

theorem State.Ok.setSensor (h : s.Ok) (i : Nat) {sn : Sensor} (hsn : sn.Ok) : (s.setSensor i sn).Ok where
  config := h.config
  nChannels := h.nChannels
  nSensors := by simpa using h.nSensors
  busy := h.busy
  channels := h.channels
  sensors := fun d hd => (List.mem_or_eq_of_mem_set hd).elim (h.sensors d) (· ▸ hsn)

theorem State.Ok.setDecode (h : s.Ok) (hi : i < s.sensors.length) {d : DecodeState} (hd : d.Ok) :
    (s.setDecode i d).Ok :=
  h.setSensor i ⟨hd, (h.sensor hi).frame, (h.sensor hi).fix⟩

theorem State.Ok.setFrame (h : s.Ok) (hi : i < s.sensors.length) {f : FrameState} (hf : f.Ok) :
    (s.setFrame i f).Ok :=
  h.setSensor i ⟨(h.sensor hi).decode, hf, (h.sensor hi).fix⟩

theorem State.Ok.setFix (h : s.Ok) (hi : i < s.sensors.length) {f : SensorFix} (hf : f.Ok) : (s.setFix i f).Ok :=
  h.setSensor i ⟨(h.sensor hi).decode, (h.sensor hi).frame, hf⟩

/-! ## EdgeCaptureBuffer -/

theorem State.Ok.overflow (h : s.Ok) : s.overflow.Ok := h.of_registers rfl rfl rfl fun _ => rfl

theorem State.Ok.endService (h : s.Ok) : s.endService.Ok := h.of_registers rfl rfl rfl nofun

theorem State.Ok.capture (h : s.Ok) {ch : Nat} {c : Channel} (low : BitVec 16) (hc : s.channels[ch]? = some c) :
    (s.capture ch c low).Ok :=
  (h.setChannel ch ((h.channel hc).append h.idxW (s.stamp low))).of_registers rfl rfl rfl fun _ => rfl

theorem State.Ok.runServices (h : s.Ok) {l : List Service} (hrun : s.runServices l = some t) : t.Ok :=
  State.runServices_induct (P := State.Ok) (fun _ hu => hu.overflow) (fun _ _ _ low hu hc => hu.capture low hc)
    (fun _ hu => hu.endService) l s t h hrun

/-- Whatever ECB.READ delivers was written, so no free value is drawn. -/
theorem State.Ok.readChannel_draws (h : s.Ok) {ch : Nat} {c : Channel} (hc : s.channels[ch]? = some c) :
    (s.readChannel ch c).2.draws = s.draws := by
  rcases s.readChannel_cases ch c with ⟨-, heq⟩ | ⟨r, loss, c', hcons, hcase⟩
  · rw [heq]
  · have hwritten := Channel.consume_written h.idxW (h.channel hc) hcons
    rcases hcase with ⟨-, heq⟩ | ⟨-, heq⟩
    all_goals rw [heq]; simp [hwritten]

theorem State.Ok.readChannel (h : s.Ok) {ch : Nat} {c : Channel} (hc : s.channels[ch]? = some c) :
    (s.readChannel ch c).2.Ok := by
  rcases s.readChannel_cases ch c with ⟨-, heq⟩ | ⟨r, loss, c', hcons, hcase⟩
  · rw [heq]
    exact h
  · have hset := h.setChannel ch ((h.channel hc).consume h.idxW hcons)
    rcases hcase with ⟨-, heq⟩ | ⟨-, heq⟩
    all_goals rw [heq]; exact hset.of_registers rfl rfl rfl h.busy

/-- R110: a claim on a free channel starts both indices at zero. -/
theorem State.Ok.execEcbBegin (h : s.Ok) {pin : Nat} {pol : Polarity} (hexec : execEcbBegin pin pol s = .next t) :
    t.Ok := by
  obtain ⟨-, ch, c, -, hc, rfl⟩ := execEcbBegin_next.mp hexec
  split
  · exact (h.clearOutput.raise _).returns _
  · refine (h.clearOutput.setChannel ch ?_).returns _
    exact Channel.ok_of_indices_zero (h.channel hc).bank rfl rfl

/-! ## OOTXDecoder and PositionSolver -/

theorem State.Ok.ootxAdd (h : s.Ok) (hi : i < s.sensors.length) (bit : BitVec 32) : (s.ootxAdd i bit).Ok := by
  rw [s.ootxAdd_eq]
  exact (h.setFrame hi ((h.sensor hi).frame.add i bit)).of_registers rfl rfl rfl h.busy

theorem State.Ok.compute (h : s.Ok) (hi : i < s.sensors.length) : (s.compute i).2.Ok := by
  obtain ⟨pos, dist, d, heq⟩ := s.compute_frame i hi
  rw [heq]
  have hfix : SensorFix.Ok { (s.sensor i).fix with pos := pos, dist := dist } := (h.sensor hi).fix
  exact (h.setFix hi hfix).of_registers rfl rfl rfl h.busy

/-- R202: short of four fresh slots the mask is not full, and the fourth clears it. -/
theorem State.update_fix_ok (hi : i < s.sensors.length) (h : (s.sensor i).fix.Ok) (slot : Nat) (angle : FloatWord) :
    ((s.update i slot angle).2.sensor i).fix.Ok := by
  rcases s.update_cases i slot angle with ⟨-, heq⟩ | ⟨-, hfresh, heq⟩ | ⟨-, -, heq⟩
  all_goals rw [heq]
  · exact h
  · exact hfresh
  · have hstore : i < (s.storeAngle i slot angle).sensors.length := by simpa [State.storeAngle] using hi
    have hcompute : i < ((s.storeAngle i slot angle).compute i).2.sensors.length := by
      rwa [(writesSensor_compute hstore).sensors_length]
    rw [State.clearFresh, State.sensor_setFix_self _ _ hcompute]
    rfl

theorem State.Ok.update (h : s.Ok) (hi : i < s.sensors.length) (slot : Nat) (angle : FloatWord) :
    (s.update i slot angle).2.Ok := by
  have hfix := State.update_fix_ok hi (h.sensor hi).fix slot angle
  obtain ⟨fix, d, conds, heq⟩ := s.update_frame i slot angle hi
  rw [heq] at hfix ⊢
  have hsensor : ∀ o, State.sensor { s with
      sensors := s.sensors.set i { s.sensor i with fix := fix }, draws := d, output := o } i =
        { s.sensor i with fix := fix } := fun _ => s.sensor_setFix_self fix hi
  rw [hsensor] at hfix
  exact (h.setFix hi hfix).of_registers rfl rfl rfl h.busy

/-! ## PulseClassifier -/

theorem State.Ok.sweepStep (h : s.Ok) (hi : i < s.sensors.length) (obs : Observation) : (s.sweepStep i obs).2.Ok := by
  rcases s.sweepStep_cases i obs with ⟨-, heq⟩ | ⟨-, angle, n, -, heq⟩
  all_goals rw [heq]
  · exact h.setDecode hi (DecodeState.afterSweep_ok _)
  · have hdraw : State.Ok { s with draws := n } := h.of_registers rfl rfl rfl h.busy
    have hi' := (writesSensor_update (s := { s with draws := n }) hi (slotIndex (s.sensor i).decode) angle).sensors_length
    exact (hdraw.update hi _ _).setDecode (hi'.symm ▸ hi) (DecodeState.afterSweep_ok _)

/-- The sync step runs only in a cycle without a sweep, which is what a lock needs (R151). -/
theorem State.Ok.syncStep (h : s.Ok) (hi : i < s.sensors.length) (hsweep : (s.sensor i).decode.gotSweep = false)
    (obs : Observation) : (s.syncStep i obs).2.Ok := by
  have hd := (h.sensor hi).decode
  rcases s.syncStep_cases i obs with ⟨-, heq⟩ | ⟨bits, -, ⟨-, heq⟩ | ⟨-, -, heq⟩ | ⟨-, -, heq⟩⟩
  all_goals rw [heq]
  · exact h.raise _
  · exact h.setDecode hi (hd.afterSkip hsweep)
  · exact h.setDecode hi (hd.afterNotSkip hsweep _)
  · exact (h.setDecode hi (hd.afterNotSkip hsweep _)).ootxAdd (by simpa using hi) _

theorem State.Ok.guardStep (h : s.Ok) (hi : i < s.sensors.length) (obs : Observation) : (s.guardStep i obs).2.Ok := by
  have hset := h.setDecode hi (DecodeState.afterGuard_ok (s.sensor i).decode)
  rcases s.guardStep_cases i obs with ⟨-, heq⟩ | ⟨-, heq⟩
  all_goals rw [heq]
  · exact hset.syncStep (by simpa using hi) (by rw [s.sensor_setDecode_self _ hi]; rfl) obs
  · exact hset.raise _

theorem gotSweep_of_not_isStale {c : Config} {duty : Timestamp} {d : DecodeState} (h : isStale c duty d = false) :
    d.gotSweep = false :=
  (Bool.or_eq_false_iff.mp h).2

theorem State.Ok.pulse (h : s.Ok) (hi : i < s.sensors.length) (rise : Timestamp) : (s.pulse i rise).2.Ok := by
  have hset := h.setDecode hi ((h.sensor hi).decode.setLastRise rise)
  have hi' : i < (s.setDecode i { (s.sensor i).decode with lastRise := rise }).sensors.length := by simpa using hi
  rcases s.pulse_cases i rise with ⟨-, heq⟩ | ⟨-, -, heq⟩ | ⟨-, hstale, heq⟩
  all_goals rw [heq]
  · exact hset.sweepStep hi' _
  · exact hset.guardStep hi' _
  · refine hset.syncStep hi' ?_ _
    rw [s.sensor_setDecode_self _ hi]
    exact gotSweep_of_not_isStale hstale

theorem State.Ok.afterFalling {x : ReadResult × State} (h : x.2.Ok) (hi : i < x.2.sensors.length) :
    (State.afterFalling i x).Ok := by
  unfold State.afterFalling
  split
  · exact h.setDecode hi ((h.sensor hi).decode.setLastFall _)
  · exact h

theorem State.Ok.afterRising {x : ReadResult × State} (h : x.2.Ok) (hi : i < x.2.sensors.length)
    (falling : ReadResult) : (State.afterRising i falling x).Ok := by
  unfold State.afterRising
  split
  · exact (h.pulse hi _).returns _
  · exact h.returns _

theorem State.Ok.interleavePoint (h : s.Ok) (hpoint : s.interleavePoint = some t) : t.Ok :=
  State.Ok.runServices (s := { s with interleave := s.interleave.tail }) (h.of_registers rfl rfl rfl h.busy) hpoint

theorem State.Ok.poll (h : s.Ok) (hi : i < s.sensors.length) {w : Wiring} (hpoll : s.poll i w = some t) : t.Ok := by
  obtain ⟨cf, v, cr, hcf, hv, hcr, rfl⟩ := State.poll_eq_some.mp hpoll
  have hread := keepsProducer_readChannel hcf
  have hfall := hread.trans (keepsProducer_afterFalling i _)
  have hok := ((h.readChannel hcf).afterFalling (hread.sensorCount.symm ▸ hi)).interleavePoint hv
  have hi' : i < v.sensors.length := by
    rw [(interleavePoint_sensors_config hv).1, hfall.sensorCount]
    exact hi
  exact (hok.readChannel hcr).afterRising ((keepsProducer_readChannel hcr).sensorCount.symm ▸ hi') _

/-! ## Reset -/

/-- After reset the invariant holds in every instantiation that is well formed, whatever the unspecified registers
hold. -/
theorem State.afterReset_ok {c : Config} (hc : c.wellFormed = true) (pol : Nat → Polarity)
    (sensorFloat sourceFloat : Nat → Nat → FloatWord) : (State.afterReset c pol sensorFloat sourceFloat).Ok where
  config := hc
  nChannels := by simp [State.afterReset]
  nSensors := by simp [State.afterReset]
  busy := nofun
  channels := fun d hd => by
    obtain ⟨ch, -, rfl⟩ := List.mem_map.mp hd
    exact Channel.afterReset_ok _ _
  sensors := fun sn hsn => by
    obtain ⟨j, -, rfl⟩ := List.mem_map.mp hsn
    exact Sensor.afterReset_ok _

theorem Config.i48_wellFormed : Config.i48.wellFormed = true := by decide

/-- Every operation keeps the invariant. -/
theorem State.Ok.exec (h : s.Ok) {op : Instr} (hexec : exec op s = .next t) : t.Ok := by
  have hclear := h.clearOutput
  cases op
  case reset =>
    obtain ⟨-, rfl⟩ := execReset_next.mp hexec
    exact (State.afterReset_ok h.config _ _ (Config.anySourceFloat s.draws)).of_registers rfl rfl rfl nofun
  case ecbBegin pin pol => exact h.execEcbBegin hexec
  case ecbTov =>
    obtain ⟨-, rfl⟩ := execEcbTov_next.mp hexec
    exact hclear.overflow
  case ecbCap ch low =>
    obtain ⟨c, hc, rfl⟩ := execEcbCap_next.mp hexec
    exact hclear.capture low hc
  case ecbIret =>
    obtain rfl := execEcbIret_next.mp hexec
    exact hclear.endService
  case ecbRead ch =>
    obtain ⟨-, c, hc, rfl⟩ := execEcbRead_next.mp hexec
    exact (hclear.readChannel hc).returns _
  case pclPoll i =>
    obtain ⟨-, hi, w, -, hpoll⟩ := execPclPoll_next.mp hexec
    exact hclear.poll hi hpoll
  case pclPulse i rise =>
    obtain ⟨-, hi, rfl⟩ := execPclPulse_next.mp hexec
    exact (hclear.pulse hi rise).returns _
  case ootxAdd i bit =>
    obtain ⟨-, hi, rfl⟩ := execOotxAdd_next.mp hexec
    exact hclear.ootxAdd hi bit
  case ootxAck i =>
    obtain ⟨-, hi, rfl⟩ := execOotxAck_next.mp hexec
    exact hclear.setFrame hi ((h.sensor hi).frame.setComplete false)
  case ootxRst i =>
    obtain ⟨-, hi, rfl⟩ := execOotxRst_next.mp hexec
    exact hclear.setFrame hi (h.sensor hi).frame.rearm
  case solSetsrc k rot origin =>
    obtain ⟨-, rfl⟩ := execSolSetsrc_next.mp hexec
    exact hclear.setSource _ _
  case solUpdate i slot angle =>
    obtain ⟨-, hi, rfl⟩ := execSolUpdate_next.mp hexec
    exact (hclear.update hi _ _).returns _
  case solCompute i =>
    obtain ⟨-, hi, rfl⟩ := execSolCompute_next.mp hexec
    exact (hclear.compute hi).returns _

end StateInvariant

/-- Settles O7: a step holds the state, or runs an operation on the state with its event taken. -/
theorem stepKeepsOk : Obligations.StepKeepsOk := by
  intro s t h hstep
  rcases step_cases hstep with ⟨-, rfl⟩ | ⟨e, rest, i, -, -, hexec⟩
  · exact h
  · have htaken : State.Ok { s with inbox := rest } := h.of_registers rfl rfl rfl h.busy
    exact htaken.exec hexec

/-- Settles O19: under the invariant the delivered slot was written. -/
theorem readNeverMeetsUnwrittenSlot : Obligations.ReadNeverMeetsUnwrittenSlot := by
  intro s t ch h hexec
  obtain ⟨-, c, hc, rfl⟩ := execEcbRead_next.mp hexec
  exact h.clearOutput.readChannel_draws hc

/-- Settles O6: I48 is well formed. -/
theorem resetStateOk : Obligations.ResetStateOk := State.afterReset_ok Config.i48_wellFormed _ _ _

/-- Settles O12: the state RESET answers is `State.afterReset` but for the queues and the draws. -/
theorem resetOperationClears : Obligations.ResetOperationClears := by
  intro s hservice
  refine ⟨_, execReset_next.mpr ⟨hservice, rfl⟩, rfl, rfl, rfl, ?_, fun c hc => ?_, ?_, fun sn hsn => ?_,
    rfl, rfl, rfl, rfl, rfl, rfl⟩
  · simp [State.afterReset]
  · obtain ⟨ch, -, rfl⟩ := List.mem_map.mp hc
    exact ⟨rfl, rfl, rfl⟩
  · simp [State.afterReset]
  · obtain ⟨i, -, rfl⟩ := List.mem_map.mp hsn
    exact ⟨rfl, rfl, rfl, rfl, rfl, rfl, rfl, rfl, rfl⟩

end Sys2Proof.Machine

/-! Interrupt services (20_memory.md R69, R70, 70_reset_and_hazards.md R265): what is refused inside one, and that a service
at an interleave point is its events, each run as an operation. -/

namespace Sys2Proof.Machine

section Services

variable {s t : State}

/-! ## Operations of POLL, and the output an operation finds -/

/-- Every operation outside the interrupt context is of the form `asPoll`. -/
theorem exec_eq_asPoll {i : Instr} (hirq : isIrq i = false) : ∃ body, ∀ s, exec i s = asPoll s body := by
  cases i
  case ecbTov => cases hirq
  case ecbCap ch low => cases hirq
  case ecbIret => cases hirq
  all_goals exact ⟨_, fun s => by
    simp only [exec, execReset, execEcbBegin, execEcbRead, execPclPoll, execPclPulse, execOotxAdd, execOotxAck,
      execOotxRst, execSolSetsrc, execSolUpdate, execSolCompute]
    rfl⟩

/-- No operation reads the output of the one before it. -/
theorem exec_clearOutput (i : Instr) (s : State) : exec i s.clearOutput = exec i s := by
  cases hirq : isIrq i
  · obtain ⟨body, hbody⟩ := exec_eq_asPoll hirq
    rw [hbody, hbody]
    rfl
  · cases i
    case ecbTov => rfl
    case ecbCap ch low => rfl
    case ecbIret => rfl
    all_goals cases hirq

/-! ## Sequences of operations -/

theorem execAll_cons {i : Instr} (is : List Instr) (h : exec i s = .next t) : execAll (i :: is) s = execAll is t := by
  simp [execAll, h]

theorem execAll_append {is : List Instr} (js : List Instr) (h : execAll is s = .next t) :
    execAll (is ++ js) s = execAll js t := by
  induction is generalizing s with
  | nil => cases h; rfl
  | cons i is ih =>
    cases hi : exec i s with
    | next u =>
      rw [execAll_cons is hi] at h
      rw [List.cons_append, execAll_cons _ hi, ih h]
    | fault f => simp [execAll, hi] at h
    | refused r => simp [execAll, hi] at h

theorem execAll_clearOutput {is : List Instr} (hne : is ≠ []) (s : State) : execAll is s.clearOutput = execAll is s := by
  cases is with
  | nil => exact absurd rfl hne
  | cons i is => simp only [execAll, exec_clearOutput]

theorem serviceEvents_ne_nil (v : Service) : serviceEvents v ≠ [] := by
  simp [serviceEvents]

/-! ## Services as their events -/

theorem exec_ecbCap_eq {ch : Nat} {c : Channel} (low : BitVec 16) (hc : s.channels[ch]? = some c) :
    exec (.ecbCap ch low) s = .next (s.capture ch c low).clearOutput :=
  execEcbCap_next.mpr ⟨c, hc, rfl⟩

theorem exec_ecbTov_eq (hs : s.inService = false) : exec .ecbTov s = .next s.overflow.clearOutput :=
  execEcbTov_next.mpr ⟨hs, rfl⟩

theorem execAll_captures {l : List (Nat × BitVec 16)} (h : s.runCaptures l = some t) :
    execAll (l.map (fun p => .ecbCap p.1 p.2) ++ [.ecbIret]) s = .next t.endService.clearOutput := by
  induction l generalizing s with
  | nil => cases h; rfl
  | cons p rest ih =>
    obtain ⟨ch, low⟩ := p
    cases hc : s.channels[ch]? with
    | none => simp [State.runCaptures, hc] at h
    | some c =>
      rw [State.runCaptures_cons hc] at h
      rw [List.map_cons, List.cons_append, execAll_cons _ (exec_ecbCap_eq low hc), execAll_clearOutput (by simp), ih h]

theorem State.runService_eq_some {v : Service} : s.runService v = some t ↔
    ∃ u, (if v.overflow then s.overflow else s).runCaptures v.captures = some u ∧ u.endService = t := by
  rw [State.runService, Option.map_eq_some_iff]

theorem execAll_serviceEvents {v : Service} (hs : s.inService = false) (h : s.runService v = some t) :
    execAll (serviceEvents v) s = .next t.clearOutput := by
  obtain ⟨u, hu, rfl⟩ := State.runService_eq_some.mp h
  rw [serviceEvents, List.append_assoc]
  cases hov : v.overflow
  · have hcaps : s.runCaptures v.captures = some u := by simpa [hov] using hu
    exact execAll_captures hcaps
  · have hcaps : s.overflow.runCaptures v.captures = some u := by simpa [hov] using hu
    exact (execAll_cons _ (exec_ecbTov_eq hs)).trans ((execAll_clearOutput (by simp) _).trans (execAll_captures hcaps))

/-- ECB.IRET ends every service (40_edge_capture_buffer.md R116). -/
theorem runService_inService {v : Service} (h : s.runService v = some t) : t.inService = false := by
  obtain ⟨u, -, rfl⟩ := State.runService_eq_some.mp h
  rfl

theorem State.runServices_cons {v : Service} {rest : List Service} (h : s.runService v = some t) :
    s.runServices (v :: rest) = t.runServices rest := by
  simp [State.runServices, h]

theorem State.runServices_cons_eq_some {v : Service} {rest : List Service} : s.runServices (v :: rest) = some t ↔
    ∃ u, s.runService v = some u ∧ u.runServices rest = some t := by
  rw [State.runServices, Option.bind_eq_some_iff]

theorem runServices_inService {l : List Service} (hs : s.inService = false) (h : s.runServices l = some t) :
    t.inService = false := by
  induction l generalizing s with
  | nil => cases h; exact hs
  | cons v rest ih =>
    obtain ⟨u, hv, hrest⟩ := State.runServices_cons_eq_some.mp h
    exact ih (runService_inService hv) hrest

theorem runServices_output {l : List Service} (h : s.runServices l = some t) : t.output = s.output :=
  State.runServices_induct (P := fun u => u.output = s.output) (fun _ hu => hu) (fun _ _ _ _ hu _ => hu)
    (fun _ hu => hu) l s t rfl h

theorem execAll_services {l : List Service} (hs : s.inService = false) (h : s.runServices l = some t) :
    execAll (l.flatMap serviceEvents) s.clearOutput = .next t.clearOutput := by
  induction l generalizing s with
  | nil => cases h; rfl
  | cons v rest ih =>
    obtain ⟨u, hv, hrest⟩ := State.runServices_cons_eq_some.mp h
    have hfirst : execAll (serviceEvents v) s.clearOutput = .next u.clearOutput := by
      rw [execAll_clearOutput (serviceEvents_ne_nil v), execAll_serviceEvents hs hv]
    rw [List.flatMap_cons, execAll_append _ hfirst, ih (runService_inService hv) hrest]

/-! ## Services complete when their channels exist -/

theorem KeepsConsumer.channels_length (h : KeepsConsumer s t) : t.channels.length = s.channels.length := by
  simpa using congrArg List.length h.reads

theorem runService_channels_length {v : Service} (h : s.runService v = some t) :
    t.channels.length = s.channels.length :=
  (keepsConsumer_runServices (State.runServices_cons (rest := []) h)).channels_length

theorem runCaptures_completes {l : List (Nat × BitVec 16)} (h : ∀ p ∈ l, p.1 < s.channels.length) :
    ∃ t, s.runCaptures l = some t := by
  induction l generalizing s with
  | nil => exact ⟨s, rfl⟩
  | cons p rest ih =>
    obtain ⟨hp, hrest⟩ := List.forall_mem_cons.mp h
    rw [State.runCaptures_cons (List.getElem?_eq_getElem hp)]
    exact ih (by simpa using hrest)

theorem runService_completes {v : Service} (h : ∀ p ∈ v.captures, p.1 < s.channels.length) :
    ∃ t, s.runService v = some t := by
  have hcaps : ∀ p ∈ v.captures, p.1 < (if v.overflow then s.overflow else s).channels.length := by
    split <;> exact h
  obtain ⟨u, hu⟩ := runCaptures_completes hcaps
  exact ⟨u.endService, State.runService_eq_some.mpr ⟨u, hu, rfl⟩⟩

theorem runServices_completes {l : List Service} (h : ∀ v ∈ l, ∀ p ∈ v.captures, p.1 < s.channels.length) :
    ∃ t, s.runServices l = some t := by
  induction l generalizing s with
  | nil => exact ⟨s, rfl⟩
  | cons v rest ih =>
    obtain ⟨hv, hrest⟩ := List.forall_mem_cons.mp h
    obtain ⟨u, hu⟩ := runService_completes hv
    rw [State.runServices_cons hu]
    exact ih (by rw [runService_channels_length hu]; exact hrest)

/-! ## The interleave point -/

theorem State.interleavePoint_cons {l : List Service} {rest : List (List Service)} (h : s.interleave = l :: rest) :
    s.interleavePoint = { s with interleave := rest }.runServices l := by
  rw [State.interleavePoint, h]
  rfl

theorem State.interleavePoint_nil (h : s.interleave = []) : s.interleavePoint = some s := by
  rw [State.interleavePoint, h]
  show some { s with interleave := [] } = some s
  rw [← h]

theorem interleavePoint_completes {l : List Service} {rest : List (List Service)} (h : s.interleave = l :: rest)
    (hrange : s.servicesInRange) : ∃ t, s.interleavePoint = some t := by
  rw [State.servicesInRange, h, List.headD_cons] at hrange
  rw [State.interleavePoint_cons h]
  exact runServices_completes hrange

/-- The events of a list of services, from a state whose output still stands: only an empty list keeps it. -/
theorem execAll_services_output {l : List Service} (hs : s.inService = false) (h : s.runServices l = some t) :
    execAll (l.flatMap serviceEvents) s = .next { t with output := if l = [] then s.output else ⟨.nothing, []⟩ } := by
  cases l with
  | nil => cases h; rfl
  | cons v rest =>
    rw [if_neg (List.cons_ne_nil v rest), ← execAll_clearOutput (by simp [serviceEvents_ne_nil]), execAll_services hs h]
    rfl

end Services

/-- Settles O38: the events of a service run as it does because no operation reads the output; at the interleave point
each service leaves the machine outside a service and every channel in place, so the next one completes. -/
theorem serviceIsItsEvents : Obligations.ServiceIsItsEvents := by
  refine ⟨fun s t v hs h => ⟨execAll_serviceEvents hs h, ?_⟩, fun s l rest hs hl hrange => ?_,
    fun s hl => State.interleavePoint_nil hl⟩
  · exact runServices_output (State.runServices_cons (rest := []) h)
  · obtain ⟨t, ht⟩ := interleavePoint_completes hl hrange
    have hrun : State.runServices { s with interleave := rest } l = some t := by
      rw [← State.interleavePoint_cons hl, ht]
    have hs' : State.inService { s with interleave := rest } = false := hs
    exact ⟨t, ht, execAll_services_output hs' hrun, (keepsConsumer_runServices hrun).interleave,
      runServices_output (s := { s with interleave := rest }) hrun, runServices_inService hs' hrun⟩

/-- Settles O11: an operation of POLL is an `asPoll`, which a service refuses, and ECB.TOV tests the same flag. -/
theorem serviceExcludesPoll : Obligations.ServiceExcludesPoll := by
  refine ⟨fun s i hs hirq => ?_, fun s hs => ?_⟩
  · obtain ⟨body, hbody⟩ := exec_eq_asPoll hirq
    rw [hbody, asPoll_refused body hs]
  · rw [exec_ecbTov, execEcbTov, if_pos hs]

end Sys2Proof.Machine

/-! Events and operations (30_encoding.md R98 to R102): each operand form of the decoder accepts exactly the words the
encoder gives its operation, so decoding and encoding are inverse. -/

namespace Sys2Proof

section Forms

variable {i : Instr} {os : List OperandWord}

/-! ## Operand words -/

theorem operandBits_eq_ok {w : Nat} (hw : w ≤ 64) {o : OperandWord} {x : BitVec w} :
    operandBits w o = .ok x ↔ o = x.setWidth 64 :=
  ⟨fun h => (setWidth_of_operandBits h).symm, fun h => h ▸ operandBits_setWidth hw x⟩

theorem operandPolarity_eq_ok {o : OperandWord} {p : Polarity} : operandPolarity o = .ok p ↔ o = polarityWord p :=
  ⟨fun h => (polarityWord_of_operandPolarity h).symm, fun h => h ▸ operandPolarity_polarityWord p⟩

theorem exceptMap_eq_ok {ε α β : Type} {f : α → β} {x : Except ε α} {b : β} :
    x.map f = .ok b ↔ ∃ a, x = .ok a ∧ f a = b := by
  cases x <;> simp [Except.map]

/-! ## The operand forms of R100 -/

theorem decodeNone_eq_ok {op : Instr} : decodeNone op os = .ok i ↔ op = i ∧ os = [] := by
  cases os <;> simp [decodeNone]

theorem decodeIndex_eq_ok {mk : Nat → Instr} :
    decodeIndex mk os = .ok i ↔ ∃ n, n < 2 ^ 64 ∧ mk n = i ∧ os = [indexWord n] := by
  constructor
  · intro h
    rcases os with _ | ⟨o, _ | ⟨_, _⟩⟩
    case cons.nil => exact ⟨o.toNat, o.isLt, Except.ok.inj h, by rw [indexWord_of_toNat]⟩
    all_goals cases h
  · rintro ⟨n, hn, rfl, rfl⟩
    rw [decodeIndex, indexWord_toNat hn]

/-- The form that ECB.CAP, PCL.PULSE and OOTX.ADD share: an index, then an operand of `w` bits. -/
def decodeIndexBits (w : Nat) (mk : Nat → BitVec w → Instr) : List OperandWord → Except DecodeError Instr
  | [n, x] => (operandBits w x).map (mk n.toNat)
  | _ => .error .operandCount

theorem decodeCap_eq : decodeCap os = decodeIndexBits 16 .ecbCap os := rfl

theorem decodePulse_eq : decodePulse os = decodeIndexBits 32 .pclPulse os := rfl

theorem decodeAdd_eq : decodeAdd os = decodeIndexBits 32 .ootxAdd os := rfl

theorem decodeIndexBits_eq_ok {w : Nat} (hw : w ≤ 64) {mk : Nat → BitVec w → Instr} :
    decodeIndexBits w mk os = .ok i ↔
      ∃ n x, n < 2 ^ 64 ∧ mk n x = i ∧ os = [indexWord n, x.setWidth 64] := by
  constructor
  · intro h
    rcases os with _ | ⟨o, _ | ⟨p, _ | ⟨_, _⟩⟩⟩
    case cons.cons.nil =>
      obtain ⟨x, hx, hi⟩ := exceptMap_eq_ok.mp h
      exact ⟨o.toNat, x, o.isLt, hi, by rw [indexWord_of_toNat, (operandBits_eq_ok hw).mp hx]⟩
    all_goals cases h
  · rintro ⟨n, x, hn, rfl, rfl⟩
    rw [decodeIndexBits, operandBits_setWidth hw, indexWord_toNat hn]
    rfl

theorem decodeBegin_eq_ok : decodeBegin os = .ok i ↔
    ∃ pin pol, pin < 2 ^ 64 ∧ Instr.ecbBegin pin pol = i ∧ os = [indexWord pin, polarityWord pol] := by
  constructor
  · intro h
    rcases os with _ | ⟨o, _ | ⟨p, _ | ⟨_, _⟩⟩⟩
    case cons.cons.nil =>
      obtain ⟨pol, hpol, hi⟩ := exceptMap_eq_ok.mp h
      exact ⟨o.toNat, pol, o.isLt, hi, by rw [indexWord_of_toNat, operandPolarity_eq_ok.mp hpol]⟩
    all_goals cases h
  · rintro ⟨pin, pol, hpin, rfl, rfl⟩
    rw [decodeBegin, operandPolarity_polarityWord, indexWord_toNat hpin]
    rfl

theorem decodeUpdate_eq_ok : decodeUpdate os = .ok i ↔
    ∃ n slot angle, n < 2 ^ 64 ∧ Instr.solUpdate n slot angle = i ∧
      os = [indexWord n, slot.setWidth 64, angle] := by
  constructor
  · intro h
    rcases os with _ | ⟨o, _ | ⟨p, _ | ⟨angle, _ | ⟨_, _⟩⟩⟩⟩
    case cons.cons.cons.nil =>
      obtain ⟨slot, hslot, hi⟩ := exceptMap_eq_ok.mp h
      exact ⟨o.toNat, slot, angle, o.isLt, hi,
        by rw [indexWord_of_toNat, (operandBits_eq_ok (by decide)).mp hslot]⟩
    all_goals cases h
  · rintro ⟨n, slot, angle, hn, rfl, rfl⟩
    rw [decodeUpdate, operandBits_setWidth (by decide), indexWord_toNat hn]
    rfl

/-- The words of SOL.SETSRC: the source, the matrix in row-major order, the origin (R98). -/
def setsrcWords (k : BitVec 1) (rot : Mat3 FloatWord) (origin : Vec3 FloatWord) : List OperandWord :=
  [k.setWidth 64] ++ vecWords rot.row0 ++ vecWords rot.row1 ++ vecWords rot.row2 ++ vecWords origin

theorem decodeSetsrc_eq_ok : decodeSetsrc os = .ok i ↔
    ∃ k rot origin, Instr.solSetsrc k rot origin = i ∧ os = setsrcWords k rot origin := by
  constructor
  · intro h
    unfold decodeSetsrc at h
    split at h
    next k r00 r01 r02 r10 r11 r12 r20 r21 r22 ox oy oz =>
      obtain ⟨k', hk, hi⟩ := exceptMap_eq_ok.mp h
      exact ⟨k', _, _, hi, by rw [(operandBits_eq_ok (by decide)).mp hk]; rfl⟩
    next => cases h
  · rintro ⟨k, rot, origin, rfl, rfl⟩
    show (operandBits 1 (k.setWidth 64)).map _ = _
    rw [operandBits_setWidth (by decide)]
    rfl

end Forms

/-! ## The table of R100 -/

theorem fits_iff {i : Instr} : i.fits = true ↔ ∀ n ∈ i.indices, n < 2 ^ 64 := by
  simp [Instr.fits]

/-- An operation with an encoding is what its event decodes to: the form of its code accepts the words. -/
theorem decode_encode {i : Instr} (h : i.fits = true) : decode (encode i) = .ok i := by
  rw [fits_iff] at h
  cases i
  case reset => exact decodeNone_eq_ok.mpr ⟨rfl, rfl⟩
  case ecbBegin pin pol => exact decodeBegin_eq_ok.mpr ⟨pin, pol, h pin (.head _), rfl, rfl⟩
  case ecbTov => exact decodeNone_eq_ok.mpr ⟨rfl, rfl⟩
  case ecbCap ch low =>
    exact decodeCap_eq.trans ((decodeIndexBits_eq_ok (by decide)).mpr ⟨ch, low, h ch (.head _), rfl, rfl⟩)
  case ecbIret => exact decodeNone_eq_ok.mpr ⟨rfl, rfl⟩
  case pclPulse n rise =>
    exact decodePulse_eq.trans ((decodeIndexBits_eq_ok (by decide)).mpr ⟨n, rise, h n (.head _), rfl, rfl⟩)
  case ootxAdd n bit =>
    exact decodeAdd_eq.trans ((decodeIndexBits_eq_ok (by decide)).mpr ⟨n, bit, h n (.head _), rfl, rfl⟩)
  case solSetsrc k rot origin => exact decodeSetsrc_eq_ok.mpr ⟨k, rot, origin, rfl, rfl⟩
  case solUpdate n slot angle => exact decodeUpdate_eq_ok.mpr ⟨n, slot, angle, h n (.head _), rfl, rfl⟩
  all_goals exact decodeIndex_eq_ok.mpr ⟨_, h _ (.head _), rfl, rfl⟩

theorem fits_of_index {i : Instr} {n : Nat} (hi : i.indices = [n]) (hn : n < 2 ^ 64) : i.fits = true := by
  rw [fits_iff, hi]
  simpa using hn

/-- An event is the encoding of an operation when it has its code and its words. -/
theorem encode_eq {e : Event} {i : Instr} (hcode : e.code.toNat = (encode i).code.toNat)
    (hwords : e.operands = (encode i).operands) : encode i = e := by
  obtain ⟨code, words⟩ := e
  obtain rfl : code = (encode i).code := BitVec.eq_of_toNat_eq hcode
  obtain rfl : words = (encode i).operands := hwords
  rfl

/-- The event of an operation with one index and no other operand. -/
theorem encode_of_decodeIndex {e : Event} {i : Instr} {mk : Nat → Instr} (h : decodeIndex mk e.operands = .ok i)
    (hindices : ∀ n, (mk n).indices = [n]) (hcode : ∀ n, e.code.toNat = (encode (mk n)).code.toNat)
    (hwords : ∀ n, (encode (mk n)).operands = [indexWord n]) : i.fits = true ∧ encode i = e := by
  obtain ⟨n, hn, rfl, hos⟩ := decodeIndex_eq_ok.mp h
  exact ⟨fits_of_index (hindices n) hn, encode_eq (hcode n) (hos.trans (hwords n).symm)⟩

/-- The event of an operation with an index and an operand of `w` bits. -/
theorem encode_of_decodeIndexBits {e : Event} {i : Instr} {w : Nat} (hw : w ≤ 64) {mk : Nat → BitVec w → Instr}
    (h : decodeIndexBits w mk e.operands = .ok i)
    (hindices : ∀ n x, (mk n x).indices = [n]) (hcode : ∀ n x, e.code.toNat = (encode (mk n x)).code.toNat)
    (hwords : ∀ n x, (encode (mk n x)).operands = [indexWord n, x.setWidth 64]) : i.fits = true ∧ encode i = e := by
  obtain ⟨n, x, hn, rfl, hos⟩ := (decodeIndexBits_eq_ok hw).mp h
  exact ⟨fits_of_index (hindices n x) hn, encode_eq (hcode n x) (hos.trans (hwords n x).symm)⟩

/-- The event of an operation without operands. -/
theorem encode_of_decodeNone {e : Event} {i op : Instr} (h : decodeNone op e.operands = .ok i)
    (hindices : op.indices = []) (hcode : e.code.toNat = (encode op).code.toNat)
    (hwords : (encode op).operands = []) : i.fits = true ∧ encode i = e := by
  obtain ⟨rfl, hos⟩ := decodeNone_eq_ok.mp h
  exact ⟨fits_iff.mpr (by simp [hindices]), encode_eq hcode (hos.trans hwords.symm)⟩

/-- The converse: the code names the form, and the form accepts no words but those of the operation. -/
theorem encode_of_decode {e : Event} {i : Instr} (h : decode e = .ok i) : i.fits = true ∧ encode i = e := by
  unfold decode at h
  split at h
  case h_1 hc => exact encode_of_decodeNone h rfl hc rfl
  case h_2 hc =>
    obtain ⟨pin, pol, hpin, rfl, hos⟩ := decodeBegin_eq_ok.mp h
    exact ⟨fits_of_index rfl hpin, encode_eq hc hos⟩
  case h_3 hc => exact encode_of_decodeNone h rfl hc rfl
  case h_4 hc =>
    exact encode_of_decodeIndexBits (by decide) (decodeCap_eq.symm.trans h) (fun _ _ => rfl) (fun _ _ => hc)
      (fun _ _ => rfl)
  case h_5 hc => exact encode_of_decodeNone h rfl hc rfl
  case h_8 hc =>
    exact encode_of_decodeIndexBits (by decide) (decodePulse_eq.symm.trans h) (fun _ _ => rfl) (fun _ _ => hc)
      (fun _ _ => rfl)
  case h_9 hc =>
    exact encode_of_decodeIndexBits (by decide) (decodeAdd_eq.symm.trans h) (fun _ _ => rfl) (fun _ _ => hc)
      (fun _ _ => rfl)
  case h_12 hc =>
    obtain ⟨k, rot, origin, rfl, hos⟩ := decodeSetsrc_eq_ok.mp h
    exact ⟨fits_iff.mpr nofun, encode_eq hc hos⟩
  case h_13 hc =>
    obtain ⟨n, slot, angle, hn, rfl, hos⟩ := decodeUpdate_eq_ok.mp h
    exact ⟨fits_of_index rfl hn, encode_eq hc hos⟩
  case h_15 => cases h
  all_goals exact encode_of_decodeIndex h (fun _ => rfl) (fun _ => ‹_›) (fun _ => rfl)

/-- A code outside the table names no operation, whatever the operands (R102). -/
theorem decode_of_not_mem {e : Event} (h : e.code ∉ operationCodes) : decode e = .error .unknownCode := by
  have hne : e.code.toNat ∉ operationCodes.map BitVec.toNat := by
    intro hmap
    obtain ⟨c, hmem, hc⟩ := List.mem_map.mp hmap
    exact h (BitVec.eq_of_toNat_eq hc ▸ hmem)
  unfold decode
  split
  case h_15 => rfl
  all_goals
    rename_i hc
    exact absurd (by rw [hc]; decide) hne

/-- Settles O1: the decoder's form of each code accepts the words the encoder writes. -/
theorem decodeEncodeRoundTrip : Obligations.DecodeEncodeRoundTrip :=
  fun _ => decode_encode

/-- Settles O2: the code of an event names one form, and the form determines the words. -/
theorem encodeDecodeExact : Obligations.EncodeDecodeExact :=
  fun _ _ => encode_of_decode

/-- Settles O3: one event of each shape, run through the decoder. -/
theorem writtenEventsDecode : Obligations.WrittenEventsDecode :=
  ⟨rfl, rfl, rfl, rfl, rfl⟩

end Sys2Proof

/-! What 30_encoding.md R102 refuses: a code that is not in the table, and an index outside its population. -/

namespace Sys2Proof.Machine

section Refusals

variable {s : State}

theorem asPoll_refuses {body : State → Answer} (h : ∃ r, body s.clearOutput = .refused r) :
    ∃ r, asPoll s body = .refused r := by
  cases hs : s.inService
  · rwa [asPoll_eq _ hs]
  · exact ⟨_, asPoll_refused _ hs⟩

theorem onChannel_refused {ch : Nat} (body : Channel → Answer) (h : s.channels.length ≤ ch) :
    onChannel s ch body = .refused .channelOutOfRange := by
  rw [onChannel, List.getElem?_eq_none h]

theorem onPin_refused {pin : Nat} (body : Nat → Channel → Answer) (h : s.config.nPins ≤ pin) :
    onPin s pin body = .refused (.pinOutOfRange pin) := by
  rw [onPin, List.getElem?_eq_none h]

theorem onSensor_refused {i : Nat} (body : Answer) (h : s.sensors.length ≤ i) :
    onSensor s i body = .refused (.sensorOutOfRange i) :=
  if_neg (Nat.not_lt.mpr h)

/-- The operations of POLL on a sensor, whatever they do to it. -/
theorem asPoll_onSensor_refuses {i : Nat} (body : State → Answer) (h : s.sensors.length ≤ i) :
    ∃ r, asPoll s (fun s => onSensor s i (body s)) = .refused r :=
  asPoll_refuses ⟨_, onSensor_refused (s := s.clearOutput) _ h⟩

/-- R102: an index operand outside its range, in arrays of the populations of the parameters. -/
theorem exec_refused_of_not_inRange {i : Instr} (hch : s.channels.length = s.config.nChannels)
    (hsn : s.sensors.length = s.config.nSensors) (h : i.inRange s.config = false) : ∃ r, exec i s = .refused r := by
  cases i <;> simp only [Instr.inRange, decide_eq_false_iff_not, Nat.not_lt, ← hch, ← hsn, reduceCtorEq] at h
  case ecbBegin pin pol =>
    rw [exec_ecbBegin, execEcbBegin]
    exact asPoll_refuses ⟨_, onPin_refused (s := s.clearOutput) _ h⟩
  case ecbCap ch low => exact ⟨_, onChannel_refused _ h⟩
  case ecbRead ch =>
    rw [exec_ecbRead, execEcbRead]
    exact asPoll_refuses ⟨_, onChannel_refused (s := s.clearOutput) _ h⟩
  all_goals
    simp only [exec, execPclPoll, execPclPulse, execOotxAdd, execOotxAck, execOotxRst, execSolUpdate, execSolCompute]
    exact asPoll_onSensor_refuses _ h

/-- R102: a step on an event whose code is not in the table. -/
theorem step_of_not_mem {e : Event} {rest : List Event} (hin : s.inbox = e :: rest) (h : e.code ∉ operationCodes) :
    step s = .refused (.unknownCode e.code) := by
  simp [step, hin, decode_of_not_mem h, refusalOf]

end Refusals

/-- Settles O4: the decoder refuses the code, the operand form refuses the index, and neither form looks at `bit` or
`slot`. -/
theorem refusedCodesAndIndices : Obligations.RefusedCodesAndIndices :=
  ⟨fun _ _ _ => step_of_not_mem, fun _ _ => exec_refused_of_not_inRange,
    fun _ _ _ hs hi => ⟨_, execOotxAdd_next.mpr ⟨hs, hi, rfl⟩⟩,
    fun _ _ _ _ hs hi => ⟨_, execSolUpdate_next.mpr ⟨hs, hi, rfl⟩⟩⟩

end Sys2Proof.Machine

/-! PCL.POLL as the operations it stands for (30_encoding.md R103): its steps neither read the result and the conditions
that stand in the output nor take a condition back, so a step inside the poll and the same step as an operation of its
own differ only in what stood there before. -/

namespace Sys2Proof.Machine

/-- The state whose output comes after `o`: the result is that of `o`, and the conditions of `o` come first. -/
def State.outputAfter (s : State) (o : Output) : State :=
  { s with output := ⟨o.result, o.conditions ++ s.output.conditions⟩ }

/-- What a solve with a value that is not finite leaves (43_position_solver.md R213), before the condition. -/
def State.freeFix (s : State) (i : Nat) : State :=
  { s.setFix i { (s.sensor i).fix with pos := Config.anyPosition s.draws, dist := Config.anyDistance s.draws } with
    draws := s.draws + 1 }

/-- The draw of a free angle when the formula of R144 has no value. -/
def State.drawUnless (s : State) (b : Bool) : State := if b then s else { s with draws := s.draws + 1 }

section FreeValues

variable {s : State} {i : Nat}

theorem State.compute_of_failed (h : solve s.config s.src0 s.src1 (s.sensor i).fix.angle = .failed) :
    s.compute i = (false, s.raise (.geometryFailure i)) := by
  simp [State.compute, h]

theorem State.compute_of_solved {pos : Vec3 FloatWord} {dist : FloatWord}
    (h : solve s.config s.src0 s.src1 (s.sensor i).fix.angle = .solved pos dist) :
    s.compute i = (true, s.setFix i { (s.sensor i).fix with pos := pos, dist := dist }) := by
  simp [State.compute, h]

theorem State.compute_of_unspecified (h : solve s.config s.src0 s.src1 (s.sensor i).fix.angle = .unspecified) :
    s.compute i = (Config.anyVerdict s.draws,
      if Config.anyVerdict s.draws then s.freeFix i else (s.freeFix i).raise (.geometryFailure i)) := by
  simp [State.compute, h, State.freeFix]

theorem State.sweepStep_eq (s : State) (i : Nat) (obs : Observation) :
    s.sweepStep i obs =
      let d := (s.sensor i).decode
      let delta := pulseMidpoint obs.rise obs.length - d.zeroTime
      if sweepValid s.config delta d then
        let value := sweepAngle s.config delta
        let angle := value.getD (Config.anyAngle s.draws)
        let u := (s.drawUnless value.isSome).update i (slotIndex d) angle
        (.sweepValid obs (slotIndex d) angle u.1, u.2.setDecode i d.afterSweep)
      else (.sweepInvalid obs, s.setDecode i d.afterSweep) := rfl

end FreeValues

section OutputAfter

variable {s t : State} {o : Output} {i : Nat}

@[simp] theorem State.outputAfter_channels : (s.outputAfter o).channels = s.channels := rfl
@[simp] theorem State.outputAfter_config : (s.outputAfter o).config = s.config := rfl
@[simp] theorem State.outputAfter_draws : (s.outputAfter o).draws = s.draws := rfl
@[simp] theorem State.outputAfter_sensor (i : Nat) : (s.outputAfter o).sensor i = s.sensor i := rfl
@[simp] theorem State.outputAfter_clearOutput : (s.outputAfter o).clearOutput = s.clearOutput := rfl

/-- Every state is its operation's start with the output put back. -/
theorem State.clearOutput_outputAfter (s : State) : s.clearOutput.outputAfter s.output = s := by
  simp [State.outputAfter, State.clearOutput]

theorem State.clearOutput_of_output (h : s.output = ⟨.nothing, []⟩) : s.clearOutput = s := by
  rw [State.clearOutput, ← h]

theorem State.outputAfter_outputAfter (s : State) (o p : Output) :
    (s.outputAfter o).outputAfter p = s.outputAfter ⟨p.result, p.conditions ++ o.conditions⟩ := by
  simp [State.outputAfter]

theorem State.returns_eq_outputAfter (s : State) (r : Result) :
    s.returns r = s.clearOutput.outputAfter ⟨r, s.output.conditions⟩ := by
  simp [State.outputAfter, State.clearOutput, State.returns]

/-! ## Writes -/

theorem State.raise_outputAfter (s : State) (o : Output) (c : Condition) :
    (s.outputAfter o).raise c = (s.raise c).outputAfter o := by
  simp [State.outputAfter, State.raise]

theorem State.ootxAdd_outputAfter (s : State) (o : Output) (i : Nat) (bit : BitVec 32) :
    (s.outputAfter o).ootxAdd i bit = (s.ootxAdd i bit).outputAfter o := by
  simp only [State.ootxAdd_eq, State.outputAfter_sensor]
  simp [State.outputAfter]

/-! ## Reads and services -/

theorem State.readChannel_outputAfter (s : State) (o : Output) (ch : Nat) (c : Channel) :
    (s.outputAfter o).readChannel ch c = ((s.readChannel ch c).1, (s.readChannel ch c).2.outputAfter o) := by
  cases hc : c.consume s.config.idxW with
  | none => simp [State.readChannel, hc]
  | some p =>
    obtain ⟨r, loss, c'⟩ := p
    cases hslot : c.rb.get (slotOf r) <;> cases loss <;>
      simp [State.readChannel, hc, hslot, State.outputAfter, State.raise, State.setChannel]

theorem State.runCaptures_outputAfter (o : Output) (l : List (Nat × BitVec 16)) (s : State) :
    (s.outputAfter o).runCaptures l = (s.runCaptures l).map (·.outputAfter o) := by
  induction l generalizing s with
  | nil => rfl
  | cons p rest ih =>
    obtain ⟨ch, low⟩ := p
    cases hc : s.channels[ch]? with
    | none => simp [State.runCaptures, hc]
    | some c =>
      rw [State.runCaptures_cons hc, State.runCaptures_cons (s := s.outputAfter o) hc, ← ih]
      rfl

theorem State.runService_outputAfter (s : State) (o : Output) (v : Service) :
    (s.outputAfter o).runService v = (s.runService v).map (·.outputAfter o) := by
  have hstart : (if v.overflow then (s.outputAfter o).overflow else s.outputAfter o) =
      (if v.overflow then s.overflow else s).outputAfter o := by
    split <;> rfl
  rw [State.runService, State.runService, hstart, State.runCaptures_outputAfter, Option.map_map, Option.map_map]
  rfl

theorem State.runServices_outputAfter (o : Output) (l : List Service) (s : State) :
    (s.outputAfter o).runServices l = (s.runServices l).map (·.outputAfter o) := by
  induction l generalizing s with
  | nil => rfl
  | cons v rest ih =>
    rw [State.runServices, State.runServices, State.runService_outputAfter]
    cases s.runService v with
    | none => rfl
    | some u => exact ih u

theorem State.interleavePoint_outputAfter (s : State) (o : Output) :
    (s.outputAfter o).interleavePoint = s.interleavePoint.map (·.outputAfter o) :=
  State.runServices_outputAfter o _ { s with interleave := s.interleave.tail }

/-! ## The steps of PCL.PULSE -/

theorem State.freeFix_outputAfter (s : State) (o : Output) (i : Nat) :
    (s.outputAfter o).freeFix i = (s.freeFix i).outputAfter o := rfl

theorem State.drawUnless_outputAfter (s : State) (o : Output) (b : Bool) :
    (s.outputAfter o).drawUnless b = (s.drawUnless b).outputAfter o := by
  cases b
  · rfl
  · rfl

theorem State.setDecode_outputAfter (s : State) (o : Output) (i : Nat) (d : DecodeState) :
    (s.outputAfter o).setDecode i d = (s.setDecode i d).outputAfter o := rfl

theorem State.compute_outputAfter (s : State) (o : Output) (i : Nat) :
    (s.outputAfter o).compute i = ((s.compute i).1, (s.compute i).2.outputAfter o) := by
  have hsame : solve (s.outputAfter o).config (s.outputAfter o).src0 (s.outputAfter o).src1
      ((s.outputAfter o).sensor i).fix.angle = solve s.config s.src0 s.src1 (s.sensor i).fix.angle := rfl
  cases h : solve s.config s.src0 s.src1 (s.sensor i).fix.angle with
  | failed =>
    rw [State.compute_of_failed h, State.compute_of_failed (hsame.trans h), State.raise_outputAfter]
  | solved pos dist =>
    rw [State.compute_of_solved h, State.compute_of_solved (hsame.trans h)]
    rfl
  | unspecified =>
    rw [State.compute_of_unspecified h, State.compute_of_unspecified (hsame.trans h), State.outputAfter_draws,
      State.freeFix_outputAfter, State.raise_outputAfter]
    split_ifs
    · rfl
    · rfl

theorem State.update_outputAfter (s : State) (o : Output) (i slot : Nat) (angle : FloatWord) :
    (s.outputAfter o).update i slot angle = ((s.update i slot angle).1, (s.update i slot angle).2.outputAfter o) := by
  have hstore : (s.outputAfter o).storeAngle i slot angle = (s.storeAngle i slot angle).outputAfter o := rfl
  simp only [State.update, hstore, State.outputAfter_sensor, State.compute_outputAfter]
  split_ifs
  · rfl
  · rfl
  · rfl

theorem State.sweepStep_outputAfter (s : State) (o : Output) (i : Nat) (obs : Observation) :
    (s.outputAfter o).sweepStep i obs = ((s.sweepStep i obs).1, (s.sweepStep i obs).2.outputAfter o) := by
  simp only [State.sweepStep_eq, State.outputAfter_sensor, State.outputAfter_config, State.outputAfter_draws,
    State.drawUnless_outputAfter, State.update_outputAfter]
  split_ifs
  · rfl
  · rfl

theorem State.syncStep_outputAfter (s : State) (o : Output) (i : Nat) (obs : Observation) :
    (s.outputAfter o).syncStep i obs = ((s.syncStep i obs).1, (s.syncStep i obs).2.outputAfter o) := by
  simp only [State.syncStep, State.outputAfter_sensor, State.outputAfter_config, State.setDecode_outputAfter,
    State.ootxAdd_outputAfter, State.raise_outputAfter]
  split
  · rfl
  · split_ifs
    · rfl
    · rfl
    · rfl

theorem State.guardStep_outputAfter (s : State) (o : Output) (i : Nat) (obs : Observation) :
    (s.outputAfter o).guardStep i obs = ((s.guardStep i obs).1, (s.guardStep i obs).2.outputAfter o) := by
  simp only [State.guardStep, State.outputAfter_sensor, State.outputAfter_config, State.setDecode_outputAfter,
    State.syncStep_outputAfter, State.raise_outputAfter]
  split
  · rfl
  · rfl

theorem State.pulse_outputAfter (s : State) (o : Output) (i : Nat) (rise : Timestamp) :
    (s.outputAfter o).pulse i rise = ((s.pulse i rise).1, (s.pulse i rise).2.outputAfter o) := by
  simp only [State.pulse, State.outputAfter_sensor, State.outputAfter_config, State.setDecode_outputAfter,
    State.sweepStep_outputAfter, State.guardStep_outputAfter, State.syncStep_outputAfter]
  split_ifs
  · rfl
  · rfl
  · rfl

/-! ## The phases of PCL.POLL -/

theorem State.afterFalling_outputAfter (i : Nat) (r : ReadResult) (s : State) (o : Output) :
    State.afterFalling i (r, s.outputAfter o) = (State.afterFalling i (r, s)).outputAfter o := by
  cases r with
  | noData => rfl
  | sample ts => rfl
  | sampleWithLoss ts => rfl

theorem State.afterFalling_output (i : Nat) (x : ReadResult × State) :
    (State.afterFalling i x).output = x.2.output := by
  unfold State.afterFalling
  split
  · rfl
  · rfl

theorem interleavePoint_output (h : s.interleavePoint = some t) : t.output = s.output :=
  runServices_output (s := { s with interleave := s.interleave.tail }) h

/-- The interleave point of a poll, from the one that follows the first read as an operation of its own. -/
theorem interleavePoint_afterFalling {x : ReadResult × State} (r : Result)
    (h : (State.afterFalling i (x.1, x.2.returns r)).interleavePoint = some t) :
    ∃ v : State, v.clearOutput = v ∧ t = v.outputAfter ⟨r, x.2.output.conditions⟩ ∧
      (State.afterFalling i x).interleavePoint = some (v.outputAfter x.2.output) := by
  rw [State.returns_eq_outputAfter, State.afterFalling_outputAfter, State.interleavePoint_outputAfter,
    Option.map_eq_some_iff] at h
  obtain ⟨v, hv, rfl⟩ := h
  have hout : v.output = ⟨.nothing, []⟩ := by
    rw [interleavePoint_output hv, State.afterFalling_output]
    rfl
  have hfall : State.afterFalling i x = (State.afterFalling i (x.1, x.2.clearOutput)).outputAfter x.2.output := by
    rw [← State.afterFalling_outputAfter, State.clearOutput_outputAfter]
  exact ⟨v, State.clearOutput_of_output hout, rfl, by rw [hfall, State.interleavePoint_outputAfter, hv]; rfl⟩

/-- Phase R without a sample, and the second read as an operation of its own. -/
theorem State.afterRising_of_none {x : ReadResult × State} (h : x.1.timestamp? = none) (falling : ReadResult)
    (o : Output) : State.afterRising i falling (x.1, x.2.outputAfter o) =
      { x.2 with output := ⟨.polled (falling.lost || x.1.lost) none, o.conditions ++ x.2.output.conditions⟩ } := by
  rw [State.afterRising, h]
  rfl

/-- Phase R with a sample: the second read and PCL.PULSE as operations of their own. -/
theorem State.afterRising_of_some {x : ReadResult × State} {ts : Timestamp} (h : x.1.timestamp? = some ts)
    (falling : ReadResult) (o : Output) : State.afterRising i falling (x.1, x.2.outputAfter o) =
      { (x.2.clearOutput.pulse i ts).2 with
        output := ⟨.polled (falling.lost || x.1.lost) (some (x.2.clearOutput.pulse i ts).1),
          o.conditions ++ x.2.output.conditions ++ (x.2.clearOutput.pulse i ts).2.output.conditions⟩ } := by
  have hstart : x.2.outputAfter o =
      x.2.clearOutput.outputAfter ⟨o.result, o.conditions ++ x.2.output.conditions⟩ := by
    rw [← State.outputAfter_outputAfter _ x.2.output, State.clearOutput_outputAfter]
  rw [State.afterRising, h, hstart]
  dsimp only
  rw [State.pulse_outputAfter]
  rfl

end OutputAfter

/-- Settles O36: each operation of the expansion starts with a cleared output, the poll goes on with the one it has; the
steps run alike, and the conditions of the later ones come after those of the earlier. -/
theorem pollIsItsExpansion : Obligations.PollIsItsExpansion := by
  intro s s1 s3 s4 i w r1 r2 hi hw hread1 hr1 hpoint hread2 hr2
  obtain ⟨hs, cf, hcf, rfl⟩ := execEcbRead_next.mp hread1
  obtain rfl := Result.read.inj hr1
  obtain ⟨v, hv, rfl, hpoint'⟩ := interleavePoint_afterFalling (i := i)
    (x := s.clearOutput.readChannel w.fallCh cf) (.read (s.clearOutput.readChannel w.fallCh cf).1) hpoint
  obtain ⟨-, cr, hcr, rfl⟩ := execEcbRead_next.mp hread2
  rw [State.outputAfter_clearOutput, hv] at hr2 ⊢
  obtain rfl := Result.read.inj hr2
  have hpoll : ∀ t, State.afterRising i (s.clearOutput.readChannel w.fallCh cf).1
      ((v.readChannel w.riseCh cr).1, (v.readChannel w.riseCh cr).2.outputAfter
        (s.clearOutput.readChannel w.fallCh cf).2.output) = t → exec (.pclPoll i) s = .next t := fun t ht =>
    execPclPoll_next.mpr ⟨hs, hi, w, hw, State.poll_eq_some.mpr
      ⟨cf, _, cr, hcf, hpoint', hcr, by rw [State.readChannel_outputAfter, ht]⟩⟩
  refine ⟨fun hnone => hpoll _ (State.afterRising_of_none hnone _ _), fun ts s5 rec hsome hpulse hrec => ?_⟩
  obtain ⟨-, -, rfl⟩ := execPclPulse_next.mp hpulse
  obtain rfl := Result.pulse.inj hrec
  exact hpoll _ (State.afterRising_of_some hsome _ _)

end Sys2Proof.Machine

/-! A whole OOTX frame fed to a decoder bit by bit (42_ootx_decoder.md R173 to R180): the preamble, the length word, the
data words, each phase with what it leaves. -/

namespace Sys2Proof.Machine

section Feed

variable {f : FrameState} {i : Nat}

theorem FrameState.feed_cons (i : Nat) (f : FrameState) (b : Bool) (bs : List Bool) :
    f.feed i (b :: bs) = (f.add i (bitOperand b)).1.feed i bs := rfl

theorem FrameState.feed_append (i : Nat) (f : FrameState) (as bs : List Bool) :
    f.feed i (as ++ bs) = (f.feed i as).feed i bs :=
  List.foldl_append

theorem FrameState.feed_singleton (i : Nat) (f : FrameState) (b : Bool) :
    f.feed i [b] = (f.add i (bitOperand b)).1 := rfl

theorem bitOperand_le_one (b : Bool) : (bitOperand b).toNat ≤ 1 := by cases b <;> decide

theorem bitOperand_getLsbD (b : Bool) : (bitOperand b).getLsbD 0 = b := by cases b <;> rfl

theorem FrameState.add_bit_preamble (b : Bool) (hmode : f.mode = .preamble) :
    (f.add i (bitOperand b)).1 = f.preambleStep b := by
  rw [FrameState.add, if_neg (Nat.not_lt.mpr (bitOperand_le_one b)), if_pos hmode, bitOperand_getLsbD]

theorem FrameState.add_bit_word (b : Bool) (hmode : f.mode ≠ .preamble) :
    (f.add i (bitOperand b)).1 = (f.wordStep i b).1 := by
  rw [FrameState.add, if_neg (Nat.not_lt.mpr (bitOperand_le_one b)), if_neg hmode, bitOperand_getLsbD]

/-! ## The preamble -/

theorem FrameState.shift_false_toNat (h : f.acc.toNat < 2 ^ 17) : (f.shift false).acc.toNat = f.acc.toNat * 2 := by
  rw [FrameState.shift, BitVec.toNat_or]
  simp [Nat.shiftLeft_eq]
  omega

/-- A zero never completes a match: it moves the window of 17 bits, and the count stays at 17. -/
theorem FrameState.Ok.preambleStep_false (h : f.Ok) (hmode : f.mode = .preamble) :
    f.preambleStep false =
      { f with acc := BitVec.ofNat 18 (f.acc.toNat * 2 % 2 ^ 17), nbits := min 17 (f.nbits + 1) } := by
  have hbits := h.preamble_bits hmode
  have hshift : (f.shift false).acc.toNat = f.acc.toNat * 2 :=
    FrameState.shift_false_toNat (Nat.lt_of_lt_of_le h.acc_lt (Nat.pow_le_pow_right Nat.two_pos hbits))
  rcases f.preambleStep_cases false with ⟨-, hmatch, -⟩ | ⟨hfull, -, heq⟩ | ⟨hfull, heq⟩
  · have hodd : f.acc.toNat * 2 = 1 := by rw [← hshift, hmatch]; rfl
    omega
  · have hacc : (f.shift false).acc &&& 0x1FFFF = BitVec.ofNat 18 (f.acc.toNat * 2 % 2 ^ 17) := by
      apply BitVec.eq_of_toNat_eq
      rw [BitVec.toNat_and, hshift, show BitVec.toNat (0x1FFFF : BitVec 18) = 2 ^ 17 - 1 from rfl,
        Nat.and_two_pow_sub_one_eq_mod, BitVec.toNat_ofNat]
      omega
    rw [heq, hacc, hfull]
    rfl
  · have hsmall : f.acc.toNat < 2 ^ 16 :=
      Nat.lt_of_lt_of_le h.acc_lt (Nat.pow_le_pow_right Nat.two_pos (by omega))
    have hacc : (f.shift false).acc = BitVec.ofNat 18 (f.acc.toNat * 2 % 2 ^ 17) := by
      apply BitVec.eq_of_toNat_eq
      rw [hshift, BitVec.toNat_ofNat]
      omega
    rw [heq, ← hacc, Nat.min_eq_right (by omega)]
    rfl

theorem FrameState.Ok.feed_zeros (h : f.Ok) (hmode : f.mode = .preamble) (k : Nat) :
    f.feed i (List.replicate (k + 1) false) =
      { f with acc := BitVec.ofNat 18 (f.acc.toNat * 2 ^ (k + 1) % 2 ^ 17), nbits := min 17 (f.nbits + (k + 1)) } := by
  induction k generalizing f with
  | zero => exact (FrameState.add_bit_preamble false hmode).trans (h.preambleStep_false hmode)
  | succ k ih =>
    have hstep := h.preambleStep_false hmode
    have hok := h.preambleStep hmode false
    rw [hstep] at hok
    rw [List.replicate_succ, FrameState.feed_cons, FrameState.add_bit_preamble false hmode, hstep, ih hok hmode]
    have hacc : (BitVec.ofNat 18 (f.acc.toNat * 2 % 2 ^ 17)).toNat * 2 ^ (k + 1) % 2 ^ 17 =
        f.acc.toNat * 2 ^ (k + 1 + 1) % 2 ^ 17 := by
      have hlt : f.acc.toNat * 2 % 2 ^ 17 < 2 ^ 18 := by omega
      rw [BitVec.toNat_ofNat, Nat.mod_eq_of_lt hlt, Nat.mod_mul_mod, mul_assoc, ← pow_succ']
    have hbits : min 17 (min 17 (f.nbits + 1) + (k + 1)) = min 17 (f.nbits + (k + 1 + 1)) := by omega
    dsimp only
    rw [hacc, hbits]

/-- A one after seventeen zeros is the match. -/
theorem FrameState.preambleStep_match (hacc : f.acc = 0) (hbits : f.nbits = 17) :
    f.preambleStep true = { f with mode := .length, acc := 0, nbits := 0 } := by
  have hone : (f.shift true).acc = 1 := by
    rw [FrameState.shift, hacc]
    rfl
  rcases f.preambleStep_cases true with ⟨-, -, heq⟩ | ⟨-, hne, -⟩ | ⟨hne, -⟩
  · exact heq
  · exact absurd hone hne
  · omega

/-- R173: from any hunting decoder the preamble starts a frame. -/
theorem FrameState.Ok.feed_preambleBits (h : f.Ok) (hmode : f.mode = .preamble) :
    f.feed i preambleBits = { f with mode := .length, acc := 0, nbits := 0 } := by
  have hzeros : f.feed i (List.replicate 17 false) = { f with acc := 0, nbits := 17 } := by
    rw [h.feed_zeros hmode 16, Nat.mul_mod_left, Nat.min_eq_left (by omega)]
    rfl
  rw [preambleBits, FrameState.feed_append, hzeros, FrameState.feed_singleton]
  exact (FrameState.add_bit_preamble (f := { f with acc := 0, nbits := 17 }) true hmode).trans
    (FrameState.preambleStep_match rfl rfl)

/-! ## A word -/

theorem FrameState.wordStep_shift (b : Bool) (hbits : f.nbits < 16) : (f.wordStep i b).1 = f.shift b := by
  rw [FrameState.wordStep, if_pos (by rw [FrameState.shift_nbits]; omega)]

/-- One more bit of a word, most significant first. -/
theorem shift_wordPrefix (word : BitVec 16) {k : Nat} (hk : k < 16) :
    ((word >>> (16 - k)).setWidth 18 <<< 1 ||| (BitVec.ofBool (word.getLsbD (15 - k))).setWidth 18) =
      (word >>> (16 - (k + 1))).setWidth 18 := by
  apply BitVec.eq_of_getLsbD_eq
  intro j hj
  rcases j with _ | j
  · simp [show 16 - (k + 1) = 15 - k by omega]
    omega
  · have hpos : 15 - k + (j + 1) = 16 - k + j := by omega
    simp [hj, hpos]

/-- R175: the shift register holds the first `k` bits of the word. -/
theorem FrameState.feed_wordPrefix (word : BitVec 16) (hmode : f.mode ≠ .preamble) (hacc : f.acc = 0)
    (hbits : f.nbits = 0) {k : Nat} (hk : k ≤ 16) :
    f.feed i ((List.range k).map fun j => word.getLsbD (15 - j)) =
      { f with acc := (word >>> (16 - k)).setWidth 18, nbits := k } := by
  induction k with
  | zero =>
    have hzero : (word >>> 16).setWidth 18 = f.acc := by
      rw [hacc, BitVec.ushiftRight_eq_zero (Nat.le_refl 16)]
      rfl
    exact congrArg₂ (fun acc nbits => ({ f with acc := acc, nbits := nbits } : FrameState)) hzero.symm hbits
  | succ k ih =>
    rw [List.range_succ, List.map_append, FrameState.feed_append, ih (by omega), List.map_singleton,
      FrameState.feed_singleton]
    refine (FrameState.add_bit_word (f := { f with acc := _, nbits := k }) _ hmode).trans ?_
    rw [FrameState.wordStep_shift (f := { f with acc := _, nbits := k }) _ hk, FrameState.shift]
    simp only [shift_wordPrefix word hk]

/-- R175, R178: the sync bit 1 after the sixteen bits of a word ends in the length-word or the data-word step. -/
theorem FrameState.wordStep_last {word : BitVec 16} (hacc : f.acc = word.setWidth 18) (hbits : f.nbits = 16) :
    (f.wordStep i true).1 =
      if f.mode = .length then ({ f with acc := 0, nbits := 0 }.lengthWord i word).1
      else { f with acc := 0, nbits := 0 }.dataWord word := by
  have hsync : (f.shift true).acc.getLsbD 0 = true := by simp [FrameState.shift]
  have hword : (f.shift true).acc.extractLsb' 1 16 = word := by
    apply BitVec.eq_of_getLsbD_eq
    intro j hj
    have hin : j < 18 ∧ 1 + j < 18 := by omega
    simp [FrameState.shift, hacc, hj, hin]
  rw [FrameState.wordStep, if_neg (by rw [FrameState.shift_nbits]; omega), if_neg (by simp [hsync]), hword]
  by_cases hmode : f.mode = .length
  · rw [if_pos hmode, if_pos (show (f.shift true).mode = .length from hmode)]
    rfl
  · rw [if_neg hmode, if_neg (show ¬ (f.shift true).mode = .length from hmode)]
    rfl

theorem FrameState.feed_wordBits (word : BitVec 16) (hmode : f.mode ≠ .preamble) (hacc : f.acc = 0)
    (hbits : f.nbits = 0) :
    f.feed i (wordBits word true) = if f.mode = .length then (f.lengthWord i word).1 else f.dataWord word := by
  have hempty : ({ f with acc := 0, nbits := 0 } : FrameState) = f := by rw [← hacc, ← hbits]
  rw [wordBits, FrameState.feed_append, FrameState.feed_wordPrefix word hmode hacc hbits (Nat.le_refl 16),
    FrameState.feed_singleton]
  refine (FrameState.add_bit_word (f := { f with acc := _, nbits := 16 }) true hmode).trans ?_
  rw [FrameState.wordStep_last (f := { f with acc := _, nbits := 16 }) (word := word) (by simp) rfl, hempty]

/-- R176: the length word of a frame that fits starts its data. -/
theorem FrameState.feed_lengthWord {word : BitVec 16} (hmode : f.mode = .length) (hacc : f.acc = 0)
    (hbits : f.nbits = 0) (hfits : frameTotal word ≤ 256) :
    f.feed i (wordBits word true) =
      { f with length := frameTotal word, padding := framePad word == 1, rxCount := 0, mode := .data } := by
  rw [FrameState.feed_wordBits word (by rw [hmode]; decide) hacc hbits, if_pos hmode, FrameState.lengthWord,
    if_neg (Nat.not_lt.mpr hfits)]

theorem FrameState.feed_dataWord (word : BitVec 16) (hmode : f.mode = .data) (hacc : f.acc = 0) (hbits : f.nbits = 0) :
    f.feed i (wordBits word true) = f.dataWord word := by
  rw [FrameState.feed_wordBits word (by rw [hmode]; decide) hacc hbits, if_neg (by rw [hmode]; decide)]

/-! ## The data words -/

@[simp] theorem FrameState.storeWord_length (f : FrameState) (w : BitVec 16) : (f.storeWord w).length = f.length := rfl
@[simp] theorem FrameState.storeWord_rxCount (f : FrameState) (w : BitVec 16) :
    (f.storeWord w).rxCount = f.rxCount + 2 := rfl

theorem FrameState.storeWord_get_high (f : FrameState) (w : BitVec 16) :
    (f.storeWord w).ob.get f.rxCount = some (w.extractLsb' 8 8) :=
  (Bank.get_set_ne _ _ (Nat.ne_of_lt (Nat.lt_succ_self _))).trans (Bank.get_set_self _ _ _)

theorem FrameState.storeWord_get_low (f : FrameState) (w : BitVec 16) :
    (f.storeWord w).ob.get (f.rxCount + 1) = some (w.extractLsb' 0 8) :=
  Bank.get_set_self _ _ _

theorem FrameState.storeWord_get_of_lt (f : FrameState) (w : BitVec 16) {j : Nat} (h : j < f.rxCount) :
    (f.storeWord w).ob.get j = f.ob.get j :=
  (Bank.get_set_ne _ _ (by omega)).trans (Bank.get_set_ne _ _ (by omega))

theorem FrameState.dataWord_of_lt {word : BitVec 16} (h : f.rxCount + 2 < f.length) :
    f.dataWord word = f.storeWord word :=
  if_neg (Nat.not_le.mpr h)

theorem FrameState.dataWord_of_eq {word : BitVec 16} (h : f.length = f.rxCount + 2) :
    f.dataWord word = { (f.storeWord word).rearm with complete := true } :=
  if_pos (Nat.le_of_eq h)

/-- The data words of a frame, stored one after another (R179). -/
def FrameState.storeWords (f : FrameState) (words : List (BitVec 16)) : FrameState := words.foldl FrameState.storeWord f

theorem FrameState.storeWords_cons (f : FrameState) (w : BitVec 16) (rest : List (BitVec 16)) :
    f.storeWords (w :: rest) = (f.storeWord w).storeWords rest := rfl

theorem FrameState.storeWords_length (f : FrameState) (words : List (BitVec 16)) :
    (f.storeWords words).length = f.length := by
  induction words generalizing f with
  | nil => rfl
  | cons w rest ih => exact ih (f.storeWord w)

theorem FrameState.storeWords_padding (f : FrameState) (words : List (BitVec 16)) :
    (f.storeWords words).padding = f.padding := by
  induction words generalizing f with
  | nil => rfl
  | cons w rest ih => exact ih (f.storeWord w)

theorem FrameState.storeWords_rxCount (f : FrameState) (words : List (BitVec 16)) :
    (f.storeWords words).rxCount = f.rxCount + 2 * words.length := by
  induction words generalizing f with
  | nil => rfl
  | cons w rest ih =>
    rw [FrameState.storeWords_cons, ih, FrameState.storeWord_rxCount, List.length_cons]
    omega

theorem FrameState.storeWords_get_of_lt (words : List (BitVec 16)) {j : Nat} (h : j < f.rxCount) :
    (f.storeWords words).ob.get j = f.ob.get j := by
  induction words generalizing f with
  | nil => rfl
  | cons w rest ih =>
    rw [FrameState.storeWords_cons, ih (Nat.lt_add_right 2 h), FrameState.storeWord_get_of_lt f w h]

/-- The bytes of the words stand in order from the count on. -/
theorem FrameState.storeWords_get {words : List (BitVec 16)} {j : Nat} (h : j < 2 * words.length) :
    (f.storeWords words).ob.get (f.rxCount + j) = (wordBytes words)[j]? := by
  induction words generalizing f j with
  | nil => exact absurd h (Nat.not_lt_zero j)
  | cons w rest ih =>
    rw [FrameState.storeWords_cons]
    match j with
    | 0 =>
      rw [FrameState.storeWords_get_of_lt rest (by simp)]
      exact f.storeWord_get_high w
    | 1 =>
      rw [FrameState.storeWords_get_of_lt rest (by simp)]
      exact f.storeWord_get_low w
    | j + 2 =>
      have hrest := ih (f := f.storeWord w) (j := j) (by rw [List.length_cons] at h; omega)
      rw [FrameState.storeWord_rxCount] at hrest
      rw [Nat.add_comm j 2, ← Nat.add_assoc, hrest, Nat.add_comm 2 j]
      rfl

/-- R179, R180: the words of a frame are stored one after another, and the last completes it. -/
theorem FrameState.feed_dataWords (w : BitVec 16) (rest : List (BitVec 16)) (hmode : f.mode = .data)
    (hacc : f.acc = 0) (hbits : f.nbits = 0) (hlen : f.length = f.rxCount + 2 * (rest.length + 1)) :
    f.feed i ((w :: rest).flatMap fun v => wordBits v true) =
      { (f.storeWords (w :: rest)).rearm with complete := true } := by
  induction rest generalizing f w with
  | nil =>
    rw [List.flatMap_singleton, FrameState.feed_dataWord w hmode hacc hbits, FrameState.dataWord_of_eq hlen]
    rfl
  | cons v rest ih =>
    rw [List.length_cons] at hlen
    have hrest : (f.storeWord w).length = (f.storeWord w).rxCount + 2 * (rest.length + 1) := by
      rw [FrameState.storeWord_length, FrameState.storeWord_rxCount]
      omega
    rw [List.flatMap_cons, FrameState.feed_append, FrameState.feed_dataWord w hmode hacc hbits,
      FrameState.dataWord_of_lt (by omega), ih (f := f.storeWord w) v hmode hacc hbits hrest]
    rfl

/-- A decoder that has read the length word of a frame (R176): the mode DATA, nothing counted, nothing held. -/
def FrameState.started (f : FrameState) (payload : BitVec 16) : FrameState :=
  { f with
    mode := .data, acc := 0, nbits := 0, rxCount := 0
    length := frameTotal payload
    padding := framePad payload == 1 }

/-- A whole frame leaves its words stored from index 0 on, and the frame complete. -/
theorem FrameState.Ok.feed_frameBits (h : f.Ok) (hmode : f.mode = .preamble) {payload w : BitVec 16}
    {rest : List (BitVec 16)} (hfits : frameTotal payload ≤ 256)
    (hcount : frameTotal payload = 2 * (rest.length + 1)) :
    f.feed i (frameBits payload (w :: rest)) =
      { ((f.started payload).storeWords (w :: rest)).rearm with complete := true } := by
  have hlength : ({ f with mode := .length, acc := 0, nbits := 0 } : FrameState).feed i (wordBits payload true) =
      f.started payload := FrameState.feed_lengthWord rfl rfl rfl hfits
  rw [frameBits, FrameState.feed_append, FrameState.feed_append, h.feed_preambleBits hmode, hlength]
  exact FrameState.feed_dataWords w rest rfl rfl rfl (hcount.trans (Nat.zero_add _).symm)

end Feed

/-- Settles O46: the preamble leaves an empty register in the mode LENGTH, the length word the mode DATA with a count of
zero, and the data words store their bytes in order until the last one completes the frame. -/
theorem frameRoundTrip : Obligations.FrameRoundTrip := by
  intro i f payload words hok hmode hpayload hcount
  have htotal : frameTotal payload = 2 * words.length := hcount.symm
  have hfits : frameTotal payload ≤ 256 := by unfold frameTotal framePad; omega
  cases words with
  | nil => exact absurd (four_le_frameTotal payload) (by simp [htotal])
  | cons w rest =>
    rw [hok.feed_frameBits hmode hfits htotal]
    have hlen : ((f.started payload).storeWords (w :: rest)).length = 2 * (w :: rest).length :=
      (FrameState.storeWords_length _ _).trans htotal
    have hrx : ((f.started payload).storeWords (w :: rest)).rxCount = 2 * (w :: rest).length :=
      (FrameState.storeWords_rxCount _ _).trans (Nat.zero_add _)
    refine ⟨rfl, rfl, rfl, rfl, hlen, hrx.trans hlen.symm, FrameState.storeWords_padding _ _, fun k hk => ?_⟩
    have hget := FrameState.storeWords_get (f := f.started payload) (Nat.lt_of_lt_of_eq hk hlen)
    rwa [show (f.started payload).rxCount = 0 from rfl, Nat.zero_add] at hget

end Sys2Proof.Machine

/-! The geometry of a solve over the rationals (43_position_solver.md R205 to R209): what each formula gives in exact
arithmetic, and that the closed form of R206 is the pair of nearest points of the two lines. -/

namespace Sys2Proof.Machine

section Exact

variable {pi : Rat} {sqrt sin cos : Rat → Option Rat}

/-! ## The formulas in exact arithmetic -/

/-- `u · v` over the rationals. -/
def ratDot (u v : Vec3 Rat) : Rat := u.x * v.x + u.y * v.y + u.z * v.z

/-- The point `p + t d` of a line. -/
def pointAlong (p d : Vec3 Rat) (t : Rat) : Vec3 Rat := ⟨p.x + t * d.x, p.y + t * d.y, p.z + t * d.z⟩

/-- `u − v` over the rationals. -/
def ratSub (u v : Vec3 Rat) : Vec3 Rat := ⟨u.x - v.x, u.y - v.y, u.z - v.z⟩

theorem dot_exact (u v : Vec3 Rat) : dot (exactArith pi sqrt sin cos) u v = some (ratDot u v) := rfl

theorem vecSub_exact (u v : Vec3 Rat) : vecSub (exactArith pi sqrt sin cos) u v = some (ratSub u v) := rfl

theorem mulSub_exact (a b c d : Rat) : mulSub (exactArith pi sqrt sin cos) a b c d = some (a * b - c * d) := rfl

theorem vecScale_exact (t : Rat) (u : Vec3 Rat) :
    vecScale (exactArith pi sqrt sin cos) t u = some ⟨t * u.x, t * u.y, t * u.z⟩ := rfl

theorem vecAdd_exact (u v : Vec3 Rat) :
    vecAdd (exactArith pi sqrt sin cos) u v = some ⟨u.x + v.x, u.y + v.y, u.z + v.z⟩ := rfl

theorem div_exact (x : Rat) {y : Rat} (hy : y ≠ 0) : (exactArith pi sqrt sin cos).div x y = some (x / y) :=
  if_neg hy

theorem lt_exact (x y : Rat) : (exactArith pi sqrt sin cos).lt x y = decide (x < y) := rfl

/-- The determinant `a c − b b` of R206. -/
def lineDenom (d0 d1 : Vec3 Rat) : Rat := ratDot d0 d0 * ratDot d1 d1 - ratDot d0 d1 * ratDot d0 d1

/-- The parameter of the closest point on the first line, `(b e − c d) / denom` (R206). -/
def closestParam0 (p0 d0 p1 d1 : Vec3 Rat) : Rat :=
  (ratDot d0 d1 * ratDot d1 (ratSub p0 p1) - ratDot d1 d1 * ratDot d0 (ratSub p0 p1)) / lineDenom d0 d1

/-- The parameter of the closest point on the second line, `(a e − b d) / denom` (R206). -/
def closestParam1 (p0 d0 p1 d1 : Vec3 Rat) : Rat :=
  (ratDot d0 d0 * ratDot d1 (ratSub p0 p1) - ratDot d0 d1 * ratDot d0 (ratSub p0 p1)) / lineDenom d0 d1

/-- R207: below epsilon the system is near-singular. -/
theorem closestApproach_of_lt {eps : Rat} {p0 d0 p1 d1 : Vec3 Rat} (h : lineDenom d0 d1 < eps) :
    closestApproach (exactArith pi sqrt sin cos) eps p0 d0 p1 d1 = some none := by
  have hlt : (exactArith pi sqrt sin cos).lt (lineDenom d0 d1) eps = true := decide_eq_true h
  simp only [closestApproach, vecSub_exact, dot_exact, mulSub_exact, Option.bind_eq_bind, Option.bind_some]
  exact if_pos hlt

/-- R206: the closed form from epsilon on. -/
theorem closestApproach_of_le {eps : Rat} {p0 d0 p1 d1 : Vec3 Rat} (heps : 0 < eps) (h : eps ≤ lineDenom d0 d1) :
    closestApproach (exactArith pi sqrt sin cos) eps p0 d0 p1 d1 =
      some (some (pointAlong p0 d0 (closestParam0 p0 d0 p1 d1), pointAlong p1 d1 (closestParam1 p0 d0 p1 d1))) := by
  have hlt : ¬ (exactArith pi sqrt sin cos).lt (lineDenom d0 d1) eps = true := by
    rw [lt_exact, decide_eq_true_eq]
    exact not_lt.mpr h
  have hne : ratDot d0 d0 * ratDot d1 d1 - ratDot d0 d1 * ratDot d0 d1 ≠ 0 := (lt_of_lt_of_le heps h).ne'
  simp only [closestApproach, vecSub_exact, dot_exact, mulSub_exact, Option.bind_eq_bind, Option.bind_some]
  refine (if_neg hlt).trans ?_
  simp only [div_exact _ hne, vecScale_exact, vecAdd_exact, Option.bind_some]
  rfl

/-! ## The nearest points -/

/-- The square of the length of the segment from `u` to `v`. -/
def ratDist2 (u v : Vec3 Rat) : Rat := (v.x - u.x) ^ 2 + (v.y - u.y) ^ 2 + (v.z - u.z) ^ 2

theorem ratDot_comm (u v : Vec3 Rat) : ratDot u v = ratDot v u := by
  simp only [ratDot]
  ring

/-- The segment between two points of the lines, seen along a vector. -/
theorem ratDot_segment (p0 d0 p1 d1 v : Vec3 Rat) (t0 t1 : Rat) :
    ratDot (ratSub (pointAlong p1 d1 t1) (pointAlong p0 d0 t0)) v =
      t1 * ratDot d1 v - t0 * ratDot d0 v - ratDot v (ratSub p0 p1) := by
  simp only [ratDot, ratSub, pointAlong]
  ring

section Closest

variable {p0 d0 p1 d1 : Vec3 Rat}

/-- The segment between the closest points. -/
def closestSegment (p0 d0 p1 d1 : Vec3 Rat) : Vec3 Rat :=
  ratSub (pointAlong p1 d1 (closestParam1 p0 d0 p1 d1)) (pointAlong p0 d0 (closestParam0 p0 d0 p1 d1))

theorem closestSegment_orthogonal0 (h : lineDenom d0 d1 ≠ 0) : ratDot (closestSegment p0 d0 p1 d1) d0 = 0 := by
  rw [closestSegment, ratDot_segment, ratDot_comm d1 d0, closestParam0, closestParam1]
  field_simp
  rw [lineDenom]
  ring

theorem closestSegment_orthogonal1 (h : lineDenom d0 d1 ≠ 0) : ratDot (closestSegment p0 d0 p1 d1) d1 = 0 := by
  rw [closestSegment, ratDot_segment, closestParam0, closestParam1]
  field_simp
  rw [lineDenom]
  ring

end Closest

theorem pointAlong_pointAlong (p d : Vec3 Rat) (t u : Rat) :
    pointAlong (pointAlong p d t) d u = pointAlong p d (t + u) := by
  simp only [pointAlong, Vec3.mk.injEq]
  exact ⟨by ring, by ring, by ring⟩

/-- Pythagoras: from the foot points of a common perpendicular of two lines, any other two points are further apart. -/
theorem ratDist2_le_of_orthogonal {q0 q1 d0 d1 : Vec3 Rat} (h0 : ratDot (ratSub q1 q0) d0 = 0)
    (h1 : ratDot (ratSub q1 q0) d1 = 0) (t0 t1 : Rat) :
    ratDist2 q0 q1 ≤ ratDist2 (pointAlong q0 d0 t0) (pointAlong q1 d1 t1) := by
  simp only [ratDot, ratSub] at h0 h1
  have hsplit : ratDist2 (pointAlong q0 d0 t0) (pointAlong q1 d1 t1) = ratDist2 q0 q1 +
      ((t1 * d1.x - t0 * d0.x) ^ 2 + (t1 * d1.y - t0 * d0.y) ^ 2 + (t1 * d1.z - t0 * d0.z) ^ 2) := by
    simp only [ratDist2, pointAlong]
    linear_combination 2 * t1 * h1 - 2 * t0 * h0
  rw [hsplit]
  exact le_add_of_nonneg_right (by positivity)

/-- The foot points of the common perpendicular are the nearest points of the two lines. -/
theorem closestApproach_minimises {p0 d0 p1 d1 : Vec3 Rat} (h : lineDenom d0 d1 ≠ 0) (t0 t1 : Rat) :
    ratDist2 (pointAlong p0 d0 (closestParam0 p0 d0 p1 d1)) (pointAlong p1 d1 (closestParam1 p0 d0 p1 d1)) ≤
      ratDist2 (pointAlong p0 d0 t0) (pointAlong p1 d1 t1) := by
  have hle := ratDist2_le_of_orthogonal (closestSegment_orthogonal0 (p0 := p0) (p1 := p1) h)
    (closestSegment_orthogonal1 (p0 := p0) (p1 := p1) h)
    (t0 - closestParam0 p0 d0 p1 d1) (t1 - closestParam1 p0 d0 p1 d1)
  rwa [pointAlong_pointAlong, pointAlong_pointAlong, add_sub_cancel, add_sub_cancel] at hle

/-! ## Midpoint and separation -/

theorem midpointOf_exact (q0 q1 : Vec3 Rat) : midpointOf (exactArith pi sqrt sin cos) q0 q1 =
    some ⟨(q0.x + q1.x) / 2, (q0.y + q1.y) / 2, (q0.z + q1.z) / 2⟩ := by
  have hdiv : ∀ x : Rat, (exactArith pi sqrt sin cos).div x 2 = some (x / 2) := fun x => div_exact x two_ne_zero
  have htwo : (exactArith pi sqrt sin cos).ofNat 2 = some 2 := rfl
  simp only [midpointOf, htwo, vecAdd_exact, vecDiv, hdiv, Option.bind_eq_bind, Option.bind_some]

theorem separation_exact (q0 q1 : Vec3 Rat) :
    separation (exactArith pi sqrt sin cos) q0 q1 = sqrt (ratDist2 q0 q1) := by
  have hsq : ratDot (ratSub q1 q0) (ratSub q1 q0) = ratDist2 q0 q1 := by
    simp only [ratDot, ratSub, ratDist2]
    ring
  simp only [separation, vecSub_exact, dot_exact, hsq, Option.bind_eq_bind, Option.bind_some]
  rfl

end Exact

/-- Settles O59: over the rationals every formula has a value; the points of the closed form are the feet of the common
perpendicular, and by Pythagoras no two points of the lines are nearer. -/
theorem closestApproachMinimises : Obligations.ClosestApproachMinimises := by
  intro pi sqrt sin cos
  refine ⟨fun eps p0 d0 p1 d1 heps => ⟨closestApproach_of_lt, fun hle => ?_⟩,
    fun q0 q1 => ⟨midpointOf_exact q0 q1, separation_exact q0 q1⟩, fun m r => rfl⟩
  have hne : lineDenom d0 d1 ≠ 0 := (lt_of_lt_of_le heps hle).ne'
  exact ⟨_, _, closestApproach_of_le heps hle, ⟨_, rfl⟩, ⟨_, rfl⟩, closestSegment_orthogonal0 hne,
    closestSegment_orthogonal1 hne, closestApproach_minimises hne⟩

end Sys2Proof.Machine

/-! The EdgeCaptureBuffer (40_edge_capture_buffer.md): what each of its operations answers and writes, the timestamp of an
edge under the environment contract, and what the reads of one channel deliver over time. -/

namespace Sys2Proof.Machine

section CaptureOperations

variable {s : State} {ch : Nat} {c c' : Channel}

theorem State.setChannel_same (hc : s.channels[ch]? = some c) : s.setChannel ch c = s := by
  rw [State.setChannel, set_same hc]

theorem State.clearOutput_stamp (s : State) (low : BitVec 16) : s.clearOutput.stamp low = s.stamp low := rfl

theorem execEcbCap_eq (low : BitVec 16) (hc : s.channels[ch]? = some c) :
    execEcbCap ch low s = .next (s.clearOutput.capture ch c low) :=
  execEcbCap_next.mpr ⟨c, hc, rfl⟩

theorem execEcbRead_eq (hservice : s.inService = false) (hc : s.channels[ch]? = some c) :
    execEcbRead ch s = .next
      ((s.clearOutput.readChannel ch c).2.returns (.read (s.clearOutput.readChannel ch c).1)) :=
  execEcbRead_next.mpr ⟨hservice, c, hc, rfl⟩

/-- Two equal indices: nothing is unread (40_edge_capture_buffer.md R120). -/
theorem State.readChannel_of_indices_eq (s : State) (ch : Nat) (h : c.writeIndex = c.readIndex) :
    s.readChannel ch c = (.noData, s) := by
  simp [State.readChannel, Channel.consume_eq_none.mpr h]

/-- A read of a written slot draws no free value. -/
theorem State.readChannel_of_written (s : State) (ch : Nat) {w r : Nat} {loss : Bool} {ts : Timestamp}
    (hw : s.config.idxW = w) (hconsume : c.consume w = some (r, loss, c')) (hslot : c.rb.get (slotOf r) = some ts) :
    s.readChannel ch c =
      if loss then (.sampleWithLoss ts, (s.setChannel ch c').raise (.sampleLoss ch))
      else (.sample ts, s.setChannel ch c') := by
  simp [State.readChannel, hw, hconsume, hslot]

/-- The read without loss takes the oldest unread sample (40_edge_capture_buffer.md R120). -/
theorem Channel.consume_of_gap_le {w : Nat} (hne : c.writeIndex ≠ c.readIndex) (hgap : c.gap w ≤ 64) :
    c.consume w = some (c.readIndex, false, { c with readIndex := idxAdd w c.readIndex 1 }) := by
  simp [Channel.consume, hne, Nat.not_lt.mpr hgap]

/-- The read after a loss takes the recovered sample (40_edge_capture_buffer.md R121). -/
theorem Channel.consume_of_lt_gap {w : Nat} (hne : c.writeIndex ≠ c.readIndex) (hgap : 64 < c.gap w) :
    c.consume w = some (c.recovered w, true, { c with readIndex := idxAdd w (c.recovered w) 1 }) := by
  simp [Channel.consume, hne, hgap]

end CaptureOperations

/-- Settles O13: the claim and the conflict are the two branches of ECB.BEGIN, and a pin without a map entry is refused
before either. -/
theorem beginClaimsChannel : Obligations.BeginClaimsChannel := by
  refine ⟨fun s pin ch pol c hservice hpin hc => ⟨fun hfree => ?_, fun hclaimed => ?_⟩,
    fun s pin pol hservice hrange => ?_⟩
  · exact execEcbBegin_next.mpr ⟨hservice, ch, c, hpin, hc, by rw [hfree]; rfl⟩
  · exact execEcbBegin_next.mpr ⟨hservice, ch, c, hpin, hc, by rw [hclaimed]; rfl⟩
  · rw [exec_ecbBegin, execEcbBegin, asPoll_eq _ hservice]
    exact onPin_refused _ hrange

/-- Settles O14: outside a service ECB.TOV is `State.overflow`; inside one it is refused, as O11 says. -/
theorem overflowCounts : Obligations.OverflowCounts := by
  intro s
  obtain ⟨-, hrefused⟩ := serviceExcludesPoll
  exact ⟨fun hservice => execEcbTov_next.mpr ⟨hservice, rfl⟩, hrefused s⟩

/-- Settles O15: an append leaves an unclaimed channel as it is, and on a claimed one writes one slot of its bank. -/
theorem captureAppends : Obligations.CaptureAppends := by
  intro s ch low c hc
  rw [exec_ecbCap, execEcbCap_eq low hc]
  refine ⟨fun hfree => ?_, fun hclaimed =>
    ⟨c.rb.set (slotOf c.writeIndex) (s.stamp low), ?_, Bank.get_set_self _ _ _, fun j hj => Bank.get_set_ne _ _ hj⟩⟩
  · rw [State.capture, Channel.append_unclaimed _ hfree, State.setChannel_same (s := s.clearOutput) hc]
    rfl
  · rw [State.capture, Channel.append_claimed _ hclaimed]
    rfl

/-- Settles O16: ECB.IRET is `State.endService` in every state. -/
theorem interruptReturnClearsFlag : Obligations.InterruptReturnClearsFlag :=
  fun _ => execEcbIret_next.mpr rfl

/-- Settles O17: the three outcomes of `Channel.consume`, on a slot that was written. -/
theorem readDelivers : Obligations.ReadDelivers := by
  intro s ch c hservice hc gap r
  rw [exec_ecbRead, execEcbRead_eq hservice hc]
  refine ⟨fun heq => ?_, fun ts hne hgap hslot => ?_, fun ts hne hgap hslot => ?_⟩
  · rw [State.readChannel_of_indices_eq _ ch heq]
    rfl
  · rw [State.readChannel_of_written s.clearOutput ch rfl (Channel.consume_of_gap_le hne hgap) hslot]
    rfl
  · rw [State.readChannel_of_written s.clearOutput ch rfl (Channel.consume_of_lt_gap hne hgap) hslot]
    rfl

/-- Settles O18: under the invariant the indices of an unclaimed channel are both zero, which is the first case of O17. -/
theorem readOfUnclaimedIsNoData : Obligations.ReadOfUnclaimedIsNoData := by
  intro s ch c h hservice hc hfree
  obtain ⟨hwrite, hread⟩ := (h.channel hc).unclaimed hfree
  obtain ⟨hnoData, -⟩ := readDelivers s ch c hservice hc
  exact hnoData (hwrite.trans hread.symm)

section Reconstruction

/-- The two halves of a tick make the tick modulo 2^32 (30_encoding.md R81). -/
theorem timestampOf_ofNat (T : Nat) :
    timestampOf (BitVec.ofNat 16 (T / 65536)) (BitVec.ofNat 16 T) = BitVec.ofNat 32 T := by
  apply BitVec.eq_of_toNat_eq
  rw [timestampOf, BitVec.toNat_append, ← Nat.shiftLeft_add_eq_or_of_lt (BitVec.isLt _), Nat.shiftLeft_eq]
  simp only [BitVec.toNat_ofNat]
  omega

theorem reconstructHi_of_race {highWater : Nat} {counter low : BitVec 16} (h : highWater ≤ low.toNat) :
    reconstructHi highWater true counter low = counter - 1 := by
  simp [reconstructHi, h]

theorem reconstructHi_of_no_race {highWater : Nat} {busy : Bool} {counter low : BitVec 16}
    (h : busy = true → low.toNat < highWater) : reconstructHi highWater busy counter low = counter :=
  if_neg fun ⟨hle, hbusy⟩ => absurd (h hbusy) (Nat.not_lt.mpr hle)

/-- The two cases of R118 of 40_edge_capture_buffer.md. With the counter at the wrap of the edge, E6 keeps the low word of
an edge in the open service below HIGH_WATER; with the counter one ahead, E5 puts it at HIGH_WATER or above. -/
theorem reconstructHi_of_contract {highWater T C j : Nat} {busy : Bool} (hTC : T ≤ C) (hjC : 65536 * j ≤ C)
    (hj : j = T / 65536 ∨ (j = T / 65536 + 1 ∧ busy = true)) (hlate : C < T + (65536 - highWater))
    (hservice : busy = true → C < 65536 * j + highWater) :
    reconstructHi highWater busy (BitVec.ofNat 16 j) (BitVec.ofNat 16 T) = BitVec.ofNat 16 (T / 65536) := by
  rcases hj with rfl | ⟨rfl, rfl⟩
  · refine reconstructHi_of_no_race fun hbusy => ?_
    have hend := hservice hbusy
    simp only [BitVec.toNat_ofNat]
    omega
  · have hhigh : highWater ≤ (BitVec.ofNat 16 T).toNat := by
      simp only [BitVec.toNat_ofNat]
      omega
    rw [reconstructHi_of_race hhigh, BitVec.ofNat_add]
    exact BitVec.add_sub_cancel _ _

end Reconstruction

/-- Settles O20: the capture stores `State.stamp`, whose high half the contract makes the wrap of the edge. -/
theorem reconstructionCorrectUnderContract : Obligations.ReconstructionCorrectUnderContract := by
  intro s ch T C j c hc hclaimed _ _ hcounter hTC hjC hj hlate hservice
  have hstamp : s.stamp (BitVec.ofNat 16 T) = BitVec.ofNat 32 T := by
    rw [State.stamp, hcounter, reconstructHi_of_contract hTC hjC hj hlate hservice, timestampOf_ofNat]
  obtain ⟨hch, -⟩ := List.getElem?_eq_some_iff.mp hc
  refine ⟨_, _, execEcbCap_eq _ hc, List.getElem?_set_self hch, ?_⟩
  rw [Channel.append_claimed _ hclaimed, State.clearOutput_stamp, hstamp]
  exact Bank.get_set_self _ _ _

section ChannelOverTime

variable {w : Nat} {c c' : Channel}

/-! ## The indices of a channel -/

theorem slotOf_idxAdd (hw : 7 ≤ w) (a b : Nat) : slotOf (idxAdd w a b) = slotOf (a + b) := slotOf_mod (by omega) _

theorem idxAdd_idxSub {a b : Nat} (ha : a < 2 ^ w) (hb : b < 2 ^ w) : idxAdd w b (idxSub w a b) = a := by
  rw [idxAdd_eq hb (idxSub_lt w a b), idxSub_eq ha hb]
  split_ifs <;> omega

theorem idxSub_eq_zero {a b : Nat} (ha : a < 2 ^ w) (hb : b < 2 ^ w) (h : idxSub w a b = 0) : a = b := by
  have hsum := idxAdd_idxSub ha hb
  rw [h, idxAdd, Nat.add_zero, Nat.mod_eq_of_lt hb] at hsum
  exact hsum.symm

/-- The write index lies in the slot that follows the unread samples. -/
theorem Channel.slotOf_writeIndex (hw : 7 ≤ w) (hwr : c.writeIndex < 2 ^ w) (hrd : c.readIndex < 2 ^ w) :
    slotOf c.writeIndex = slotOf (c.readIndex + c.gap w) := by
  rw [← slotOf_idxAdd hw, Channel.gap, idxAdd_idxSub hwr hrd]

/-- Fewer than 64 indices in a row lie in different slots (30_encoding.md R86). -/
theorem slotOf_add_ne {a k n : Nat} (hk : k < n) (hn : n < 64) : slotOf (a + k) ≠ slotOf (a + n) := by
  simp only [slotOf]
  omega

theorem idxAdd_idxAdd (w a b k : Nat) : idxAdd w (idxAdd w a b) k = idxAdd w a (b + k) := by
  simp only [idxAdd, Nat.mod_add_mod, Nat.add_assoc]

/-- An append adds one to the gap while the indices can count it. -/
theorem idxSub_succ {a b : Nat} (ha : a < 2 ^ w) (hb : b < 2 ^ w) (h : idxSub w a b + 1 < 2 ^ w) :
    idxSub w (idxAdd w a 1) b = idxSub w a b + 1 := by
  rw [idxSub_eq (idxAdd_lt w a 1) hb, idxAdd_eq ha (by omega)]
  rw [idxSub_eq ha hb] at h ⊢
  split_ifs at h ⊢ <;> omega

/-- A read takes one off the gap. -/
theorem idxSub_pred (hw : 7 ≤ w) {a b : Nat} (ha : a < 2 ^ w) (hb : b < 2 ^ w) (hne : a ≠ b) :
    idxSub w a (idxAdd w b 1) + 1 = idxSub w a b := by
  have hpow := lt_two_pow_of_idxW hw
  rw [idxSub_eq ha (idxAdd_lt w b 1), idxSub_eq ha hb, idxAdd_eq hb (by omega)]
  split_ifs <;> omega

/-! ## The unread samples -/

theorem Channel.pending_of_indices_eq (hrd : c.readIndex < 2 ^ w) (h : c.writeIndex = c.readIndex) :
    c.pending w = [] := by
  rw [Channel.pending, Channel.gap, h, idxSub_self w hrd]
  rfl

/-- An append puts its timestamp behind the unread samples, if it laps none of them. -/
theorem Channel.pending_append (hw : 7 ≤ w) (hwr : c.writeIndex < 2 ^ w) (hrd : c.readIndex < 2 ^ w)
    (hclaimed : c.claimed = true) (ts : Timestamp) (hgap : c.gap w ≤ 64) (hgap' : (c.append w ts).gap w ≤ 64) :
    (c.append w ts).pending w = c.pending w ++ [some ts] := by
  have hpow : 2 ^ 7 ≤ 2 ^ w := Nat.pow_le_pow_right (by decide) hw
  have hsucc : (c.append w ts).gap w = c.gap w + 1 := by
    rw [Channel.append_claimed ts hclaimed]
    exact idxSub_succ hwr hrd (show c.gap w + 1 < 2 ^ w by omega)
  have hslot := Channel.slotOf_writeIndex hw hwr hrd
  rw [Channel.pending, hsucc, List.range_succ, List.map_append, Channel.append_claimed ts hclaimed, Channel.pending]
  congr 1
  · refine List.map_congr_left fun k hk => Bank.get_set_ne _ _ ?_
    rw [hslot, slotOf_idxAdd hw]
    exact slotOf_add_ne (List.mem_range.mp hk) (by omega)
  · rw [List.map_singleton, slotOf_idxAdd hw, hslot, Bank.get_set_self]

/-- Moving the read index past the oldest unread sample removes that sample. -/
theorem Channel.pending_eq_cons (hw : 7 ≤ w) (hwr : c.writeIndex < 2 ^ w) (hrd : c.readIndex < 2 ^ w)
    (hne : c.writeIndex ≠ c.readIndex) :
    c.pending w = c.rb.get (slotOf c.readIndex) ::
      Channel.pending w { c with readIndex := idxAdd w c.readIndex 1 } := by
  have hpred : c.gap w = Channel.gap w { c with readIndex := idxAdd w c.readIndex 1 } + 1 :=
    (idxSub_pred hw hwr hrd hne).symm
  rw [Channel.pending, hpred, List.range_succ_eq_map, List.map_cons, List.map_map, slotOf_idxAdd hw]
  refine congrArg _ (List.map_congr_left fun k _ => ?_)
  rw [Function.comp_apply, idxAdd_idxAdd, Nat.succ_eq_one_add]

/-! ## Events -/

@[simp] theorem Channel.event_push (w : Nat) (c : Channel) (ts : Timestamp) :
    c.event w (.push ts) = ([], c.append w ts) := rfl

theorem Channel.event_read_of_indices_eq (h : c.writeIndex = c.readIndex) : c.event w .read = ([], c) := by
  simp [Channel.event, Channel.consume_eq_none.mpr h]

theorem Channel.event_read_of_consume {r : Nat} {loss : Bool} (h : c.consume w = some (r, loss, c')) :
    c.event w .read = ([(c.rb.get (slotOf r), loss)], c') := by
  simp [Channel.event, h]

@[simp] theorem Channel.events_nil (w : Nat) (c : Channel) : c.events w [] = ([], c) := rfl

theorem Channel.events_cons (w : Nat) (c : Channel) (e : ChannelEvent) (rest : List ChannelEvent) :
    c.events w (e :: rest) =
      ((c.event w e).1 ++ ((c.event w e).2.events w rest).1, ((c.event w e).2.events w rest).2) := rfl

theorem Channel.NeverLapped.gap_le {l : List ChannelEvent} (h : c.NeverLapped w l) : c.gap w ≤ 64 := by
  cases l with
  | nil => exact h
  | cons e rest => exact h.1

theorem Channel.Ok.event (hw : 7 ≤ w) (h : c.Ok w) (e : ChannelEvent) : (c.event w e).2.Ok w := by
  cases e with
  | push ts => exact h.append hw ts
  | read =>
    cases hc : c.consume w with
    | none => rwa [Channel.event_read_of_indices_eq (Channel.consume_eq_none.mp hc)]
    | some p =>
      obtain ⟨r, loss, c'⟩ := p
      rw [Channel.event_read_of_consume hc]
      exact h.consume hw hc

theorem Channel.event_claim (w : Nat) (c : Channel) (e : ChannelEvent) : (c.event w e).2.claimed = c.claimed := by
  cases e with
  | push ts => exact Channel.append_claim w c ts
  | read =>
    cases hc : c.consume w with
    | none => rw [Channel.event_read_of_indices_eq (Channel.consume_eq_none.mp hc)]
    | some p =>
      obtain ⟨r, loss, c'⟩ := p
      obtain ⟨-, rfl, -⟩ := Channel.consume_cases hc
      rw [Channel.event_read_of_consume hc]

/-- One event on a channel that is not lapped: what it delivers followed by what is unread after it is what was unread
before followed by what it pushes, and no delivery carries a loss mark. -/
theorem Channel.event_fifo (hw : 7 ≤ w) (h : c.Ok w) (hclaimed : c.claimed = true) (e : ChannelEvent)
    (hgap : c.gap w ≤ 64) (hgap' : (c.event w e).2.gap w ≤ 64) :
    (c.event w e).1.map Prod.fst ++ (c.event w e).2.pending w = c.pending w ++ (pushed [e]).map some ∧
    ∀ p ∈ (c.event w e).1, p.2 = false := by
  cases e with
  | push ts => exact ⟨Channel.pending_append hw h.write_lt h.read_lt hclaimed ts hgap hgap', by simp⟩
  | read =>
    by_cases heq : c.writeIndex = c.readIndex
    · rw [Channel.event_read_of_indices_eq heq]
      simp [pushed]
    · rw [Channel.event_read_of_consume (Channel.consume_of_gap_le heq hgap),
        Channel.pending_eq_cons hw h.write_lt h.read_lt heq]
      simp [pushed]

theorem pushed_cons (e : ChannelEvent) (rest : List ChannelEvent) : pushed (e :: rest) = pushed [e] ++ pushed rest := by
  cases e <;> rfl

/-- `Channel.event_fifo` along a sequence of events, from any samples unread at its start. -/
theorem Channel.events_fifo (hw : 7 ≤ w) (l : List ChannelEvent) : ∀ {c : Channel}, c.Ok w → c.claimed = true →
    c.NeverLapped w l →
    (c.events w l).1.map Prod.fst ++ (c.events w l).2.pending w = c.pending w ++ (pushed l).map some ∧
    ∀ p ∈ (c.events w l).1, p.2 = false := by
  induction l with
  | nil => intro c _ _ _; simp [pushed]
  | cons e rest ih =>
    intro c h hclaimed hlap
    obtain ⟨hgap, hrest⟩ := hlap
    obtain ⟨horder, hmark⟩ := Channel.event_fifo hw h hclaimed e hgap hrest.gap_le
    obtain ⟨ihorder, ihmark⟩ := ih (h.event hw e) ((Channel.event_claim w c e).trans hclaimed) hrest
    rw [Channel.events_cons, pushed_cons]
    refine ⟨?_, fun p hp => (List.mem_append.mp hp).elim (hmark p) (ihmark p)⟩
    rw [List.map_append, List.append_assoc, ihorder, ← List.append_assoc, horder, List.append_assoc, List.map_append]

/-- As many reads as there are unread samples deliver these, without loss mark, and leave the channel empty. -/
theorem Channel.events_drain (hw : 7 ≤ w) (n : Nat) : ∀ {c : Channel}, c.writeIndex < 2 ^ w → c.readIndex < 2 ^ w →
    c.gap w = n → n ≤ 64 →
    (c.events w (List.replicate n .read)).1 = (c.pending w).map (fun ts => (ts, false)) ∧
    (c.events w (List.replicate n .read)).2.writeIndex = (c.events w (List.replicate n .read)).2.readIndex := by
  induction n with
  | zero =>
    intro c hwr hrd hgap _
    have heq := idxSub_eq_zero hwr hrd hgap
    simp [Channel.pending_of_indices_eq hrd heq, heq]
  | succ n ih =>
    intro c hwr hrd hgap hn
    have hne : c.writeIndex ≠ c.readIndex := by
      intro heq
      rw [Channel.gap, heq, idxSub_self w hrd] at hgap
      omega
    have hgap' : Channel.gap w { c with readIndex := idxAdd w c.readIndex 1 } = n :=
      Nat.succ_injective ((idxSub_pred hw hwr hrd hne).trans hgap)
    obtain ⟨ihreads, ihempty⟩ := ih (c := { c with readIndex := idxAdd w c.readIndex 1 }) hwr (idxAdd_lt w _ _) hgap'
      (by omega)
    rw [List.replicate_succ, Channel.events_cons,
      Channel.event_read_of_consume (Channel.consume_of_gap_le hne (by omega)), Channel.pending_eq_cons hw hwr hrd hne]
    exact ⟨by rw [ihreads]; rfl, ihempty⟩

/-! ## Captures without a read -/

/-- `c` after the captures `l` from index 0 and no read: the newest 64 of them are in their slots. -/
structure Channel.HoldsNewest (c : Channel) (l : List Timestamp) : Prop where
  claimed : c.claimed = true
  writeIndex : c.writeIndex = l.length
  readIndex : c.readIndex = 0
  slots : ∀ k, k < l.length → l.length ≤ k + 64 → c.rb.get (slotOf k) = l[k]?

theorem Channel.HoldsNewest.append {l : List Timestamp} (h : c.HoldsNewest l) (ts : Timestamp)
    (hlen : l.length + 1 < 2 ^ w) : (c.append w ts).HoldsNewest (l ++ [ts]) := by
  rw [Channel.append_claimed ts h.claimed]
  refine ⟨h.claimed, ?_, h.readIndex, fun k hk hnew => ?_⟩
  · simp only [h.writeIndex, idxAdd, Nat.mod_eq_of_lt hlen, List.length_append, List.length_singleton]
  · simp only [List.length_append, List.length_singleton] at hk hnew
    rw [h.writeIndex]
    rcases Nat.lt_succ_iff_lt_or_eq.mp hk with hlt | rfl
    · have hslot : slotOf k ≠ slotOf l.length := by
        simp only [slotOf]
        omega
      rw [Bank.get_set_ne _ _ hslot, List.getElem?_append_left hlt]
      exact h.slots k hlt (by omega)
    · rw [Bank.get_set_self, List.getElem?_concat_length]

theorem Channel.HoldsNewest.events_push (l : List Timestamp) : ∀ {c : Channel} {earlier : List Timestamp},
    c.HoldsNewest earlier → earlier.length + l.length < 2 ^ w → (c.events w (l.map .push)).2.HoldsNewest (earlier ++ l) := by
  induction l with
  | nil => intro c earlier h _; simpa using h
  | cons ts rest ih =>
    intro c earlier h hlen
    rw [List.length_cons] at hlen
    have hnext := h.append (w := w) ts (by omega)
    have hrest := ih hnext (by rw [List.length_append, List.length_singleton]; omega)
    rwa [List.append_assoc] at hrest

/-- The unread samples of a channel read up to index `k`, one of the newest 64. -/
theorem Channel.HoldsNewest.pending_at {l : List Timestamp} (h : c.HoldsNewest l) (hw : 7 ≤ w)
    (hlen : l.length < 2 ^ w) {k : Nat} (hk : k ≤ l.length) (hnew : l.length ≤ k + 64) :
    Channel.gap w { c with readIndex := k } = l.length - k ∧
    Channel.pending w { c with readIndex := k } = (l.drop k).map some := by
  have hgap : Channel.gap w { c with readIndex := k } = l.length - k := by
    rw [Channel.gap, h.writeIndex, idxSub_eq hlen (show k < 2 ^ w by omega), if_pos hk]
  refine ⟨hgap, ?_⟩
  rw [Channel.pending, hgap]
  refine List.ext_getElem? fun j => ?_
  rw [List.getElem?_map, List.getElem?_map, List.getElem?_drop]
  by_cases hj : j < l.length - k
  · rw [List.getElem?_range hj, Option.map_some, slotOf_idxAdd hw, h.slots (k + j) (by omega) (by omega),
      List.getElem?_eq_getElem (show k + j < l.length by omega), Option.map_some]
  · rw [List.getElem?_eq_none (by simpa using hj), List.getElem?_eq_none (show l.length ≤ k + j by omega)]
    rfl

/-- The first read after more than 64 captures (40_edge_capture_buffer.md R121). -/
theorem Channel.HoldsNewest.event_read {l : List Timestamp} (h : c.HoldsNewest l) (hlen : l.length < 2 ^ w)
    (hlapped : 64 < l.length) :
    c.event w .read = ([(l[l.length - 63]?, true)], { c with readIndex := l.length - 62 }) := by
  have hgap : c.gap w = l.length := by
    rw [Channel.gap, h.writeIndex, h.readIndex, idxSub_zero hlen]
  have hrecovered : c.recovered w = l.length - 63 := by
    rw [Channel.recovered, h.writeIndex, idxSub_eq hlen (by omega), if_pos (by omega),
      idxAdd_eq (by omega) (by omega), if_pos (by omega)]
    omega
  have hnext : idxAdd w (l.length - 63) 1 = l.length - 62 := by
    rw [idxAdd_eq (by omega) (by omega), if_pos (by omega)]
    omega
  have hne : c.writeIndex ≠ c.readIndex := by
    rw [h.writeIndex, h.readIndex]
    omega
  rw [Channel.event_read_of_consume (Channel.consume_of_lt_gap hne (by omega)), hrecovered, hnext,
    h.slots _ (by omega) (by omega)]

end ChannelOverTime

/-- Settles O21: `Channel.events_fifo` from a channel with nothing unread. -/
theorem fifoDelivery : Obligations.FifoDelivery := by
  intro w c l hw h hclaimed heq hlap
  have hfifo := Channel.events_fifo hw l h hclaimed hlap
  rwa [Channel.pending_of_indices_eq h.read_lt heq, List.nil_append] at hfifo

/-- Settles O22: the first read skips to the 63rd newest sample, the 62 after it drain the rest, and the last finds the
indices equal. -/
theorem lossHeals : Obligations.LossHeals := by
  intro w c l hw hclaimed hwrite hread hlapped hlen full drained
  have hstart : c.HoldsNewest [] := ⟨hclaimed, hwrite, hread, fun k hk => absurd hk (Nat.not_lt_zero k)⟩
  have hfull : full.HoldsNewest l := Channel.HoldsNewest.events_push l hstart (by rwa [List.length_nil, Nat.zero_add])
  obtain ⟨hgap, hpending⟩ := hfull.pending_at hw hlen (k := l.length - 62) (by omega) (by omega)
  obtain ⟨hreads, hempty⟩ := Channel.events_drain hw 62 (c := { full with readIndex := l.length - 62 })
    (hfull.writeIndex ▸ hlen) (show l.length - 62 < 2 ^ w by omega) (by omega) (by decide)
  have hdrained : drained = full.events w (.read :: List.replicate 62 .read) := rfl
  rw [Channel.events_cons, hfull.event_read hlen hlapped] at hdrained
  rw [hdrained]
  refine ⟨?_, by rw [Channel.event_read_of_indices_eq hempty]⟩
  have hlt : l.length - 63 < l.length := by omega
  rw [hreads, hpending, List.drop_eq_getElem_cons hlt, List.getElem?_eq_getElem hlt, List.mapIdx_cons,
    show l.length - 63 + 1 = l.length - 62 by omega]
  exact congrArg _ (List.ext_getElem? fun j => by simp [Function.comp_def])

end Sys2Proof.Machine

/-! The PulseClassifier (41_pulse_classifier.md): when a pulse takes which of its steps, what each step answers and writes,
and what a poll answers. -/

namespace Sys2Proof.Machine

section BranchTests

variable {c : Config} {d : DecodeState} {a b code : SyncCode} {length duty delta : Timestamp}

/-! ## The tests of R142, R144 and R147 -/

theorem isSweep_iff : isSweep c length = true ↔ length.toNat < c.tShort := decide_eq_true_iff

theorem isSweep_eq_false_iff : isSweep c length = false ↔ c.tShort ≤ length.toNat :=
  decide_eq_false_iff_not.trans Nat.not_lt

theorem isStale_iff : isStale c duty d = true ↔ c.tGap < duty.toNat ∨ d.gotSweep = true := by
  rw [isStale, Bool.or_eq_true, decide_eq_true_iff]

theorem isStale_eq_false_iff : isStale c duty d = false ↔ duty.toNat ≤ c.tGap ∧ d.gotSweep = false := by
  rw [isStale, Bool.or_eq_false_iff, decide_eq_false_iff_not, Nat.not_lt]

theorem sweepValid_iff : sweepValid c delta d = true ↔
    d.gotSweep = false ∧ d.lhId ≠ .unknown ∧ delta.toNat ≤ c.tWindow := by
  simp [sweepValid, and_assoc]

theorem slotIndex_lt (d : DecodeState) : slotIndex d < 4 := by
  have haxis : d.axis.toNat ≤ 1 := Bool.toNat_le d.axis
  unfold slotIndex
  split <;> omega

/-- 30_encoding.md R91 for a known id. -/
theorem slotIndex_eq {lh : Nat} (h : d.lhId = .zero ∧ lh = 0 ∨ d.lhId = .one ∧ lh = 1) :
    slotIndex d = lh * 2 + d.axis.toNat := by
  rcases h with ⟨hid, rfl⟩ | ⟨hid, rfl⟩
  all_goals rw [slotIndex, hid]

theorem syncMatch_eq_none_iff : syncMatch c length = none ↔
    ∀ code ∈ c.sync, ¬(code.center ≤ length.toNat + c.syncTol ∧ length.toNat ≤ code.center + c.syncTol) := by
  simp only [syncMatch, Option.map_eq_none_iff, List.find?_eq_none, inWindow_iff]

/-- The first window that holds the length is the only one (30_encoding.md R89). -/
theorem syncMatch_eq_some (hc : c.wellFormed = true) (hcode : code ∈ c.sync)
    (hin : inWindow c.syncTol code length.toNat = true) : syncMatch c length = some code.bits := by
  have hfound : (c.sync.find? fun code => inWindow c.syncTol code length.toNat).isSome :=
    List.find?_isSome.mpr ⟨code, hcode, hin⟩
  obtain ⟨other, hother⟩ := Option.isSome_iff_exists.mp hfound
  have hunique : other = code :=
    syncMatchUnique c length other code hc (List.mem_of_find?_eq_some hother) hcode
      (List.find?_some (p := fun code => inWindow c.syncTol code length.toNat) hother) hin
  rw [syncMatch, hother, hunique]
  rfl

/-- 00_scope.md R10: every window lies above `T_SHORT`. -/
theorem tShort_lt_center (hc : c.wellFormed = true) (hcode : code ∈ c.sync) : c.tShort + c.syncTol < code.center := by
  simp only [Config.wellFormed, Config.syncOk, Bool.and_eq_true, List.all_eq_true, decide_eq_true_eq] at hc
  obtain ⟨⟨⟨⟨-, ⟨⟨-, habove⟩, -⟩, -⟩, -⟩, -⟩, -⟩ := hc
  exact habove code hcode

/-- A matched width is no sweep. -/
theorem tShort_le_of_inWindow (hc : c.wellFormed = true) (hcode : code ∈ c.sync)
    (hlow : code.center ≤ length.toNat + c.syncTol) : c.tShort ≤ length.toNat := by
  have habove := tShort_lt_center hc hcode
  omega

/-- R152: a width between the windows of two neighbours lies in no window, for no centre lies between theirs. -/
theorem syncMatch_between (hneighbours : ∀ code ∈ c.sync, code.center ≤ a.center ∨ b.center ≤ code.center)
    (hlow : a.center + c.syncTol < length.toNat) (hhigh : length.toNat + c.syncTol < b.center) :
    syncMatch c length = none := by
  rw [syncMatch_eq_none_iff]
  rintro code hcode ⟨hge, hle⟩
  rcases hneighbours code hcode with hbelow | habove
  · omega
  · omega

/-- R144, R154: the formula has a value when each of its operations has one. -/
theorem sweepAngle_eq_some {x o n m p angle : FloatWord} (hx : (arithOf c.numerics).ofNat delta.toNat = some x)
    (ho : (arithOf c.numerics).ofNat c.tOffset = some o) (hn : (arithOf c.numerics).sub x o = some n)
    (hm : (arithOf c.numerics).mul n (arithOf c.numerics).pi = some m)
    (hp : (arithOf c.numerics).ofNat c.tSpan = some p) (hangle : (arithOf c.numerics).div m p = some angle) :
    sweepAngle c delta = some angle := by
  simp only [sweepAngle, Option.bind_eq_bind, Option.bind_some, hx, ho, hn, hm, hp, hangle]

end BranchTests

/-! ## PCL.PULSE by its branches -/

/-- The decode state with the rising edge stored (41_pulse_classifier.md R142). -/
def DecodeState.afterEdge (d : DecodeState) (rise : Timestamp) : DecodeState := { d with lastRise := rise }

/-- R148 after a skip = 1 pulse of the same cycle: the id becomes 0. -/
theorem DecodeState.afterNotSkip_of_gotSkip {d : DecodeState} {rotor : Bool} (h : d.gotSkip = true) :
    d.afterNotSkip rotor = { d with zeroTime := d.lastFall, axis := rotor, gotNotSkip := true, lhId := .zero } := by
  rw [DecodeState.afterNotSkip, if_pos h]

/-- R148 without one: the id stays. -/
theorem DecodeState.afterNotSkip_of_not_gotSkip {d : DecodeState} {rotor : Bool} (h : d.gotSkip = false) :
    d.afterNotSkip rotor = { d with zeroTime := d.lastFall, axis := rotor, gotNotSkip := true } := by
  rw [DecodeState.afterNotSkip, h]
  rfl

/-- The state PCL.PULSE answers when its last step ended in `x`. -/
def pulseAnswer (x : PulseRecord × State) : State := x.2.returns (.pulse x.1)

section Branches

variable {s : State} {i : Nat} {rise : Timestamp} {sn : Sensor} {d : DecodeState} {obs : Observation}

theorem exec_pclPulse_eq (hs : s.inService = false) (hi : i < s.sensors.length) (rise : Timestamp) :
    exec (.pclPulse i rise) s = .next (pulseAnswer (s.clearOutput.pulse i rise)) :=
  execPclPulse_next.mpr ⟨hs, hi, rfl⟩

theorem State.lt_of_getElem? (hsn : s.sensors[i]? = some sn) : i < s.sensors.length :=
  (List.getElem?_eq_some_iff.mp hsn).1

/-- The step PCL.PULSE takes, by the two tests of R142. -/
theorem exec_pclPulse_of_sensor (hs : s.inService = false) (hsn : s.sensors[i]? = some sn) :
    exec (.pclPulse i rise) s = .next (pulseAnswer
      (let t := s.clearOutput.setDecode i (sn.decode.afterEdge rise)
       if isSweep s.config (rise - sn.decode.lastFall) then t.sweepStep i (sn.decode.observe rise)
       else if isStale s.config (rise - sn.decode.lastRise) sn.decode then t.guardStep i (sn.decode.observe rise)
       else t.syncStep i (sn.decode.observe rise))) := by
  rw [exec_pclPulse_eq hs (State.lt_of_getElem? hsn), ← s.sensor_of_getElem? hsn]
  rfl

/-- R144: a pulse shorter than `T_SHORT` takes the sweep step. -/
theorem exec_pclPulse_of_sweep (hs : s.inService = false) (hsn : s.sensors[i]? = some sn)
    (hshort : (rise - sn.decode.lastFall).toNat < s.config.tShort) :
    exec (.pclPulse i rise) s = .next (pulseAnswer
      ((s.clearOutput.setDecode i (sn.decode.afterEdge rise)).sweepStep i (sn.decode.observe rise))) := by
  rw [exec_pclPulse_of_sensor hs hsn, if_pos (isSweep_iff.mpr hshort)]

/-- R146: a longer pulse in a stale cycle takes the guard step. -/
theorem exec_pclPulse_of_stale (hs : s.inService = false) (hsn : s.sensors[i]? = some sn)
    (hlong : s.config.tShort ≤ (rise - sn.decode.lastFall).toNat)
    (hstale : s.config.tGap < (rise - sn.decode.lastRise).toNat ∨ sn.decode.gotSweep = true) :
    exec (.pclPulse i rise) s = .next (pulseAnswer
      ((s.clearOutput.setDecode i (sn.decode.afterEdge rise)).guardStep i (sn.decode.observe rise))) := by
  rw [exec_pclPulse_of_sensor hs hsn, isSweep_eq_false_iff.mpr hlong, isStale_iff.mpr hstale]
  rfl

/-- R147: a longer pulse in a live cycle takes the sync step. -/
theorem exec_pclPulse_of_live (hs : s.inService = false) (hsn : s.sensors[i]? = some sn)
    (hlong : s.config.tShort ≤ (rise - sn.decode.lastFall).toNat)
    (hgap : (rise - sn.decode.lastRise).toNat ≤ s.config.tGap) (hsweep : sn.decode.gotSweep = false) :
    exec (.pclPulse i rise) s = .next (pulseAnswer
      ((s.clearOutput.setDecode i (sn.decode.afterEdge rise)).syncStep i (sn.decode.observe rise))) := by
  rw [exec_pclPulse_of_sensor hs hsn, isSweep_eq_false_iff.mpr hlong, isStale_eq_false_iff.mpr ⟨hgap, hsweep⟩]
  rfl

/-! ## What a step answers after the writes `d` before it -/

theorem State.sweepStep_of_invalid (hi : i < s.sensors.length)
    (h : sweepValid s.config (pulseMidpoint obs.rise obs.length - d.zeroTime) d = false) :
    (s.setDecode i d).sweepStep i obs = (.sweepInvalid obs, s.setDecode i d.afterSweep) := by
  rw [State.sweepStep_eq, s.sensor_setDecode_self d hi, State.setDecode_config]
  dsimp only
  rw [h, State.setDecode_setDecode _ _ _ _ hi]
  rfl

theorem State.guardStep_of_fallthrough (hi : i < s.sensors.length) (h : s.config.guardFallthrough = true) :
    (s.setDecode i d).guardStep i obs = (s.setDecode i d.afterGuard).syncStep i obs := by
  rw [State.guardStep, s.sensor_setDecode_self d hi, State.setDecode_config, if_pos h,
    State.setDecode_setDecode _ _ _ _ hi]

theorem State.guardStep_of_no_fallthrough (hi : i < s.sensors.length) (h : s.config.guardFallthrough = false) :
    (s.setDecode i d).guardStep i obs = (.guard obs, (s.setDecode i d.afterGuard).raise (.protocolResync i)) := by
  rw [State.guardStep, s.sensor_setDecode_self d hi, State.setDecode_config, h, State.setDecode_setDecode _ _ _ _ hi]
  rfl

theorem State.syncStep_of_none (h : syncMatch s.config obs.length = none) :
    s.syncStep i obs = (.unmatched obs, s.raise (.protocolResync i)) := by
  simp [State.syncStep, h]

section Matched

variable {bits : SyncBits}

theorem State.syncStep_of_some (hi : i < s.sensors.length) (h : syncMatch s.config obs.length = some bits) :
    (s.setDecode i d).syncStep i obs =
      if bits.skip then (.sync obs bits false, s.setDecode i d.afterSkip)
      else if d.gotSkip then (.sync obs bits true,
        (s.setDecode i (d.afterNotSkip bits.rotor)).ootxAdd i (bitOperand bits.data))
      else (.sync obs bits false, s.setDecode i (d.afterNotSkip bits.rotor)) := by
  simp only [State.syncStep, s.sensor_setDecode_self d hi, State.setDecode_config, h,
    State.setDecode_setDecode _ _ _ _ hi, bitOperand]

theorem State.syncStep_of_skip (hi : i < s.sensors.length) (h : syncMatch s.config obs.length = some bits)
    (hskip : bits.skip = true) :
    (s.setDecode i d).syncStep i obs = (.sync obs bits false, s.setDecode i d.afterSkip) := by
  rw [State.syncStep_of_some hi h, if_pos hskip]

theorem State.syncStep_of_notSkip (hi : i < s.sensors.length) (h : syncMatch s.config obs.length = some bits)
    (hskip : bits.skip = false) (hgot : d.gotSkip = false) :
    (s.setDecode i d).syncStep i obs = (.sync obs bits false, s.setDecode i (d.afterNotSkip bits.rotor)) := by
  rw [State.syncStep_of_some hi h, hskip, hgot]
  rfl

theorem State.syncStep_of_forwarded (hi : i < s.sensors.length) (h : syncMatch s.config obs.length = some bits)
    (hskip : bits.skip = false) (hgot : d.gotSkip = true) :
    (s.setDecode i d).syncStep i obs = (.sync obs bits true,
      (s.setDecode i (d.afterNotSkip bits.rotor)).ootxAdd i (bitOperand bits.data)) := by
  rw [State.syncStep_of_some hi h, hskip, hgot]
  rfl

/-- A match gives its triple to the record, whether or not the bit is forwarded. -/
theorem State.syncStep_record (h : syncMatch s.config obs.length = some bits) :
    ∃ forwarded, (s.syncStep i obs).1 = .sync obs bits forwarded := by
  rcases s.syncStep_cases i obs with ⟨hnone, -⟩ | ⟨bits', hsome, hcase⟩
  · rw [h] at hnone
    cases hnone
  · obtain rfl := Option.some.inj (h.symm.trans hsome)
    rcases hcase with ⟨-, heq⟩ | ⟨-, -, heq⟩ | ⟨-, -, heq⟩
    all_goals exact ⟨_, by rw [heq]⟩

end Matched

/-! ## The answer as an update of the state before -/

theorem pulseAnswer_setDecode (hsn : s.sensors[i]? = some sn) (d : DecodeState) (rec : PulseRecord) :
    pulseAnswer (rec, s.clearOutput.setDecode i d) =
      { s with sensors := s.sensors.set i { sn with decode := d }, output := ⟨.pulse rec, []⟩ } := by
  rw [← s.sensor_of_getElem? hsn]
  rfl

theorem pulseAnswer_raise (hsn : s.sensors[i]? = some sn) (d : DecodeState) (rec : PulseRecord) (c : Condition) :
    pulseAnswer (rec, (s.clearOutput.setDecode i d).raise c) =
      { s with sensors := s.sensors.set i { sn with decode := d }, output := ⟨.pulse rec, [c]⟩ } := by
  rw [← s.sensor_of_getElem? hsn]
  rfl

end Branches

section Commutation

variable {s : State} {i : Nat}

/-! ## OOTX.ADD and SOL.UPDATE neither read nor write the decode state -/

theorem State.setDecode_setFix (d : DecodeState) (f : SensorFix) (hi : i < s.sensors.length) :
    (s.setDecode i d).setFix i f = (s.setFix i f).setDecode i d := by
  rw [State.setFix, s.sensor_setDecode_self d hi, State.setDecode, State.setDecode, s.sensor_setFix_self f hi,
    State.setFix, State.setSensor_setSensor, State.setSensor_setSensor]

theorem State.setDecode_ootxAdd (d : DecodeState) (bit : BitVec 32) (hi : i < s.sensors.length) :
    (s.setDecode i d).ootxAdd i bit = (s.ootxAdd i bit).setDecode i d := by
  rw [State.ootxAdd_eq, State.ootxAdd_eq, s.sensor_setDecode_self d hi]
  simp [State.setDecode, State.setSensor, State.sensor, hi]

theorem State.setDecode_compute (d : DecodeState) (hi : i < s.sensors.length) :
    (s.setDecode i d).compute i = ((s.compute i).1, (s.compute i).2.setDecode i d) := by
  have hfix : ((s.setDecode i d).sensor i).fix = (s.sensor i).fix := by rw [s.sensor_setDecode_self d hi]
  have hsame : solve (s.setDecode i d).config (s.setDecode i d).src0 (s.setDecode i d).src1
      ((s.setDecode i d).sensor i).fix.angle = solve s.config s.src0 s.src1 (s.sensor i).fix.angle := by
    rw [hfix]
    rfl
  cases h : solve s.config s.src0 s.src1 (s.sensor i).fix.angle with
  | failed =>
    rw [State.compute_of_failed h, State.compute_of_failed (hsame.trans h)]
    rfl
  | solved pos dist =>
    rw [State.compute_of_solved h, State.compute_of_solved (hsame.trans h), hfix, State.setDecode_setFix d _ hi]
  | unspecified =>
    have hfree : (s.setDecode i d).freeFix i = (s.freeFix i).setDecode i d := by
      rw [State.freeFix, hfix, State.setDecode_setFix d _ hi]
      rfl
    rw [State.compute_of_unspecified h, State.compute_of_unspecified (hsame.trans h), hfree, State.setDecode_draws]
    split_ifs
    · rfl
    · rfl

theorem State.setDecode_clearFresh (d : DecodeState) (hi : i < s.sensors.length) :
    (s.setDecode i d).clearFresh i = (s.clearFresh i).setDecode i d := by
  rw [State.clearFresh, s.sensor_setDecode_self d hi, State.setDecode_setFix d _ hi, State.clearFresh]

theorem State.setDecode_storeAngle (d : DecodeState) (slot : Nat) (angle : FloatWord) (hi : i < s.sensors.length) :
    (s.setDecode i d).storeAngle i slot angle = (s.storeAngle i slot angle).setDecode i d := by
  rw [State.storeAngle, s.sensor_setDecode_self d hi]
  dsimp only
  rw [State.setDecode_setFix d _ hi, State.storeAngle]

theorem State.setDecode_update (d : DecodeState) (slot : Nat) (angle : FloatWord) (hi : i < s.sensors.length) :
    (s.setDecode i d).update i slot angle = ((s.update i slot angle).1, (s.update i slot angle).2.setDecode i d) := by
  have hstore : i < (s.storeAngle i slot angle).sensors.length := by simpa [State.storeAngle] using hi
  have hcompute : i < ((s.storeAngle i slot angle).compute i).2.sensors.length := by
    rwa [(writesSensor_compute hstore).sensors_length]
  simp only [State.update, State.setDecode_storeAngle d slot angle hi, State.sensor_setDecode_self _ d hstore,
    State.setDecode_compute d hstore, State.setDecode_clearFresh d hcompute]
  split_ifs
  · rfl
  · rfl
  · rfl

/-- R144, R145: with a finite angle the sweep step is SOL.UPDATE followed by the sweep writes. -/
theorem State.sweepStep_of_valid {d : DecodeState} {obs : Observation} {angle : FloatWord} (hi : i < s.sensors.length)
    (h : sweepValid s.config (pulseMidpoint obs.rise obs.length - d.zeroTime) d = true)
    (hangle : sweepAngle s.config (pulseMidpoint obs.rise obs.length - d.zeroTime) = some angle) :
    (s.setDecode i d).sweepStep i obs =
      (.sweepValid obs (slotIndex d) angle (s.update i (slotIndex d) angle).1,
        (s.update i (slotIndex d) angle).2.setDecode i d.afterSweep) := by
  have hlength := (writesSensor_update hi (slotIndex d) angle).sensors_length
  rw [State.sweepStep_eq, s.sensor_setDecode_self d hi, State.setDecode_config]
  dsimp only
  rw [if_pos h, hangle, Option.isSome_some, Option.getD_some, State.drawUnless, if_pos rfl,
    State.setDecode_update d _ _ hi, State.setDecode_setDecode _ _ _ _ (hlength.symm ▸ hi)]

end Commutation

/-- Settles O23: the sweep step with a validity test that fails. -/
theorem pulseInvalidSweep : Obligations.PulseInvalidSweep := by
  intro s i rise sn hs hsn d length delta hshort hinvalid
  have hi : i < s.clearOutput.sensors.length := State.lt_of_getElem? hsn
  have htest : sweepValid s.config delta (sn.decode.afterEdge rise) = false :=
    Bool.eq_false_iff.mpr fun hvalid => hinvalid (sweepValid_iff.mp hvalid)
  rw [exec_pclPulse_of_sweep hs hsn hshort, State.sweepStep_of_invalid (obs := sn.decode.observe rise) hi htest,
    pulseAnswer_setDecode hsn]
  rfl

/-- Settles O25: the guard step without fall-through. -/
theorem pulseTakesGuard : Obligations.PulseTakesGuard := by
  intro s i rise sn hs hsn d length duty hfall hlong hstale
  have hi : i < s.clearOutput.sensors.length := State.lt_of_getElem? hsn
  rw [exec_pclPulse_of_stale hs hsn hlong hstale, State.guardStep_of_no_fallthrough hi hfall, pulseAnswer_raise hsn]
  rfl

/-- Settles O26: the sync step without a match. -/
theorem pulseUnmatchedWidth : Obligations.PulseUnmatchedWidth := by
  intro s i rise sn hs hsn d length duty hlong hgap hsweep hnone
  rw [exec_pclPulse_of_live hs hsn hlong hgap hsweep, State.syncStep_of_none (syncMatch_eq_none_iff.mpr hnone),
    pulseAnswer_raise hsn]
  rfl

/-- Settles O27: the sync step on a code with skip 0; a forwarded bit makes it OOTX.ADD followed by the writes of R148,
for OOTX.ADD and these writes touch different registers. -/
theorem pulseNotSkip : Obligations.PulseNotSkip := by
  intro s i rise sn code hs hsn hwf hcode hskip d length duty hlow hhigh hgap hsweep
  have hi : i < s.clearOutput.sensors.length := State.lt_of_getElem? hsn
  have hmatch : syncMatch s.clearOutput.config (sn.decode.observe rise).length = some code.bits :=
    syncMatch_eq_some hwf hcode (inWindow_iff.mpr ⟨hlow, hhigh⟩)
  rw [exec_pclPulse_of_live hs hsn (tShort_le_of_inWindow hwf hcode hlow) hgap hsweep]
  refine ⟨fun (hgot : (sn.decode.afterEdge rise).gotSkip = false) => ?_,
    fun (hgot : (sn.decode.afterEdge rise).gotSkip = true) => ⟨s.clearOutput.ootxAdd i (bitOperand code.bits.data),
      execOotxAdd_next.mpr ⟨hs, hi, rfl⟩, ?_⟩⟩
  · rw [State.syncStep_of_notSkip hi hmatch hskip hgot, DecodeState.afterNotSkip_of_not_gotSkip hgot,
      pulseAnswer_setDecode hsn]
    rfl
  · rw [State.syncStep_of_forwarded hi hmatch hskip hgot, DecodeState.afterNotSkip_of_gotSkip hgot,
      State.setDecode_ootxAdd _ _ hi]
    rfl

/-- Settles O28: the sync step on a code with skip 1. -/
theorem pulseSkip : Obligations.PulseSkip := by
  intro s i rise sn code hs hsn hwf hcode hskip d length duty hlow hhigh hgap hsweep
  have hi : i < s.clearOutput.sensors.length := State.lt_of_getElem? hsn
  have hmatch : syncMatch s.clearOutput.config (sn.decode.observe rise).length = some code.bits :=
    syncMatch_eq_some hwf hcode (inWindow_iff.mpr ⟨hlow, hhigh⟩)
  rw [exec_pclPulse_of_live hs hsn (tShort_le_of_inWindow hwf hcode hlow) hgap hsweep,
    State.syncStep_of_skip hi hmatch hskip, pulseAnswer_setDecode hsn]
  rfl

/-- Settles O29: the guard step goes on as the sync step of the guard's writes, whose clear flags lock nothing and
forward nothing. -/
theorem guardFallthrough : Obligations.GuardFallthrough := by
  intro s i rise sn hs hsn d obs guarded hfall hlong hstale
  have hi : i < s.clearOutput.sensors.length := State.lt_of_getElem? hsn
  have hobs : sn.decode.observe rise = obs := rfl
  rw [exec_pclPulse_of_stale hs hsn hlong hstale, State.guardStep_of_fallthrough hi hfall, hobs]
  refine ⟨fun hnone => ?_, fun bits hmatch => ?_⟩
  · rw [State.syncStep_of_none (s := s.clearOutput.setDecode i _) hnone, pulseAnswer_raise hsn]
    rfl
  · cases hskip : bits.skip
    · rw [State.syncStep_of_notSkip (s := s.clearOutput) hi hmatch hskip rfl, pulseAnswer_setDecode hsn]
      rfl
    · rw [State.syncStep_of_skip (s := s.clearOutput) hi hmatch hskip, pulseAnswer_setDecode hsn]
      rfl

/-- Settles O30: a centre lies in its own window, and between the windows of two neighbours there is none. -/
theorem syncClassificationExact : Obligations.SyncClassificationExact := by
  intro s i rise sn hs hsn hwf hsweep hgap obs
  refine ⟨fun code hcode hcenter => ?_, fun a ha b hb hneighbours hlow hhigh => ?_⟩
  · have hin : code.center ≤ obs.length.toNat + s.config.syncTol ∧
        obs.length.toNat ≤ code.center + s.config.syncTol := by omega
    obtain ⟨forwarded, hrec⟩ := State.syncStep_record (i := i)
      (s := s.clearOutput.setDecode i (sn.decode.afterEdge rise)) (obs := obs)
      (syncMatch_eq_some hwf hcode (inWindow_iff.mpr hin))
    exact ⟨_, forwarded, exec_pclPulse_of_live hs hsn (tShort_le_of_inWindow hwf hcode hin.1) hgap hsweep,
      congrArg Result.pulse hrec⟩
  · have hlong : s.config.tShort ≤ obs.length.toNat := by
      have habove := tShort_lt_center hwf ha
      omega
    refine ⟨_, exec_pclPulse_of_live hs hsn hlong hgap hsweep, ?_⟩
    exact congrArg (fun x => Result.pulse x.1) (State.syncStep_of_none (obs := obs) (i := i)
      (s := s.clearOutput.setDecode i (sn.decode.afterEdge rise)) (syncMatch_between hneighbours hlow hhigh))

/-- Settles O24: the sweep step with a valid sweep whose formula has a value. -/
theorem pulseValidSweep : Obligations.PulseValidSweep := by
  intro s i rise sn lh d o n m p angle hs hsn A length delta slot hshort hsweep hwindow hid hd ho hn hm hp hangle
  have hi : i < s.clearOutput.sensors.length := State.lt_of_getElem? hsn
  have hslot : slotIndex (sn.decode.afterEdge rise) = slot := slotIndex_eq (d := sn.decode.afterEdge rise) hid
  have hlt : slot < 4 := hslot ▸ slotIndex_lt _
  have hoperand : (BitVec.ofNat 8 slot).toNat = slot := by
    rw [BitVec.toNat_ofNat, Nat.mod_eq_of_lt (by omega)]
  have hknown : sn.decode.lhId ≠ .unknown := by
    rcases hid with ⟨hid, -⟩ | ⟨hid, -⟩
    all_goals rw [hid]; decide
  have htest : sweepValid s.config delta (sn.decode.afterEdge rise) = true :=
    sweepValid_iff.mpr ⟨hsweep, hknown, hwindow⟩
  have hvalue : sweepAngle s.config delta = some angle := sweepAngle_eq_some hd ho hn hm hp hangle
  refine ⟨_, _, execSolUpdate_next.mpr ⟨hs, hi, rfl⟩, rfl, ?_⟩
  rw [exec_pclPulse_of_sweep hs hsn hshort, State.sweepStep_of_valid (obs := sn.decode.observe rise) hi htest hvalue,
    hslot, hoperand]
  rfl

/-! ## What a pulse can do to its sensor -/

/-- What a step of PCL.PULSE that answers `rec` may make of the registers `a` of its sensor: the two edges stay, and the
decoder takes at most the bit of a record that forwards one (41_pulse_classifier.md R142, R150). -/
structure PulseKeeps (i : Nat) (rec : PulseRecord) (a b : Sensor) : Prop where
  lastRise : b.decode.lastRise = a.decode.lastRise
  lastFall : b.decode.lastFall = a.decode.lastFall
  frame : b.frame = a.frame ∨ ∃ obs bits, rec = .sync obs bits true ∧ bits.skip = false ∧
    a.decode.gotSkip = true ∧ b.frame = (a.frame.add i (bitOperand bits.data)).1

section OwnSensor

variable {s t : State} {i : Nat}

/-- SOL.UPDATE writes only the SensorFix of its sensor. -/
theorem State.sensor_update (hi : i < s.sensors.length) (slot : Nat) (angle : FloatWord) :
    ∃ fix, (s.update i slot angle).2.sensor i = { s.sensor i with fix := fix } := by
  obtain ⟨fix, d, conds, heq⟩ := s.update_frame i slot angle hi
  exact ⟨fix, by rw [heq]; exact s.sensor_setFix_self fix hi⟩

theorem State.sensor_ootxAdd (hi : i < s.sensors.length) (bit : BitVec 32) :
    (s.ootxAdd i bit).sensor i = { s.sensor i with frame := ((s.sensor i).frame.add i bit).1 } := by
  rw [State.ootxAdd_eq]
  exact s.sensor_setFrame_self _ hi

theorem pulseKeeps_sweepStep (hi : i < s.sensors.length) (obs : Observation) :
    PulseKeeps i (s.sweepStep i obs).1 (s.sensor i) ((s.sweepStep i obs).2.sensor i) := by
  rcases s.sweepStep_cases i obs with ⟨-, heq⟩ | ⟨-, angle, n, -, heq⟩
  · rw [heq, s.sensor_setDecode_self _ hi]
    exact ⟨rfl, rfl, .inl rfl⟩
  · obtain ⟨fix, hsensor⟩ := State.sensor_update (s := { s with draws := n }) hi (slotIndex (s.sensor i).decode) angle
    have hwrites := writesSensor_update (s := { s with draws := n }) hi (slotIndex (s.sensor i).decode) angle
    rw [heq, State.sensor_setDecode_self _ _ (hwrites.sensors_length.symm ▸ hi), hsensor]
    exact ⟨rfl, rfl, .inl rfl⟩

theorem pulseKeeps_syncStep (hi : i < s.sensors.length) (obs : Observation) :
    PulseKeeps i (s.syncStep i obs).1 (s.sensor i) ((s.syncStep i obs).2.sensor i) := by
  rcases s.syncStep_cases i obs with ⟨-, heq⟩ | ⟨bits, -, ⟨-, heq⟩ | ⟨-, -, heq⟩ | ⟨hskip, hgot, heq⟩⟩
  · rw [heq]
    exact ⟨rfl, rfl, .inl rfl⟩
  · rw [heq, s.sensor_setDecode_self _ hi]
    exact ⟨rfl, rfl, .inl rfl⟩
  · rw [heq, s.sensor_setDecode_self _ hi]
    exact ⟨rfl, rfl, .inl rfl⟩
  · rw [heq, State.sensor_ootxAdd (by simpa using hi), s.sensor_setDecode_self _ hi]
    exact ⟨rfl, rfl, .inr ⟨obs, bits, rfl, hskip, hgot, rfl⟩⟩

/-- The guard clears `got_skip` first, so a sync step after it forwards nothing. -/
theorem pulseKeeps_guardStep (hi : i < s.sensors.length) (obs : Observation) :
    PulseKeeps i (s.guardStep i obs).1 (s.sensor i) ((s.guardStep i obs).2.sensor i) := by
  have hset := s.sensor_setDecode_self (s.sensor i).decode.afterGuard hi
  rcases s.guardStep_cases i obs with ⟨-, heq⟩ | ⟨-, heq⟩
  · have hi' : i < (s.setDecode i (s.sensor i).decode.afterGuard).sensors.length := by simpa using hi
    obtain ⟨hrise, hfall, hframe⟩ := pulseKeeps_syncStep hi' obs
    rw [hset] at hrise hfall hframe
    rw [heq]
    refine ⟨hrise, hfall, .inl ?_⟩
    rcases hframe with hsame | ⟨-, -, -, -, hgot, -⟩
    · exact hsame
    · cases hgot
  · rw [heq, State.sensor_raise, hset]
    exact ⟨rfl, rfl, .inl rfl⟩

/-- Every pulse stores its edge and then makes one of the three steps. -/
theorem pulseKeeps_pulse (hi : i < s.sensors.length) (rise : Timestamp) :
    PulseKeeps i (s.pulse i rise).1 { s.sensor i with decode := (s.sensor i).decode.afterEdge rise }
      ((s.pulse i rise).2.sensor i) := by
  have hi' : i < (s.setDecode i ((s.sensor i).decode.afterEdge rise)).sensors.length := by simpa using hi
  rw [← s.sensor_setDecode_self _ hi]
  rcases s.pulse_cases i rise with ⟨-, heq⟩ | ⟨-, -, heq⟩ | ⟨-, -, heq⟩
  all_goals rw [heq]
  · exact pulseKeeps_sweepStep hi' _
  · exact pulseKeeps_guardStep hi' _
  · exact pulseKeeps_syncStep hi' _

/-! ## Which step answers with an angle -/

theorem syncStep_ne_sweepValid (s : State) (i : Nat) (obs obs' : Observation) (slot : Nat) (angle : FloatWord)
    (ok : Bool) : (s.syncStep i obs).1 ≠ .sweepValid obs' slot angle ok := by
  rcases s.syncStep_cases i obs with ⟨-, heq⟩ | ⟨bits, -, ⟨-, heq⟩ | ⟨-, -, heq⟩ | ⟨-, -, heq⟩⟩
  all_goals rw [heq]; nofun

theorem guardStep_ne_sweepValid (s : State) (i : Nat) (obs obs' : Observation) (slot : Nat) (angle : FloatWord)
    (ok : Bool) : (s.guardStep i obs).1 ≠ .sweepValid obs' slot angle ok := by
  rcases s.guardStep_cases i obs with ⟨-, heq⟩ | ⟨-, heq⟩
  all_goals rw [heq]
  · exact syncStep_ne_sweepValid _ _ _ _ _ _ _
  · nofun

/-- R144: a record with an angle comes from a cycle without a sweep and with a known id, and its slot is theirs. -/
theorem pulse_eq_sweepValid (hi : i < s.sensors.length) {rise : Timestamp} {obs : Observation} {slot : Nat}
    {angle : FloatWord} {ok : Bool} (h : (s.pulse i rise).1 = .sweepValid obs slot angle ok) :
    (s.sensor i).decode.gotSweep = false ∧ (s.sensor i).decode.lhId ≠ .unknown ∧
      slot = slotIndex (s.sensor i).decode := by
  rcases s.pulse_cases i rise with ⟨-, heq⟩ | ⟨-, -, heq⟩ | ⟨-, -, heq⟩
  all_goals rw [heq] at h
  · have hset := s.sensor_setDecode_self { (s.sensor i).decode with lastRise := rise } hi
    rcases State.sweepStep_cases _ i _ with ⟨-, hstep⟩ | ⟨hvalid, angle', n, -, hstep⟩
    all_goals rw [hstep] at h
    · cases h
    · rw [hset] at hvalid h
      obtain ⟨hsweep, hknown, -⟩ := sweepValid_iff.mp hvalid
      injection h with _ hslot
      exact ⟨hsweep, hknown, hslot.symm⟩
  · exact absurd h (guardStep_ne_sweepValid _ _ _ _ _ _ _)
  · exact absurd h (syncStep_ne_sweepValid _ _ _ _ _ _ _)

end OwnSensor

/-- Settles O32: `PulseKeeps.frame` of the whole pulse. -/
theorem onlyNotSkipAfterSkipForwards : Obligations.OnlyNotSkipAfterSkipForwards := by
  intro s t i rise h
  obtain ⟨-, hi, rfl⟩ := execPclPulse_next.mp h
  refine (pulseKeeps_pulse (s := s.clearOutput) hi rise).frame.imp id ?_
  rintro ⟨obs, bits, hrec, hskip, hgot, hadd⟩
  exact ⟨obs, bits, congrArg Result.pulse hrec, hskip, hgot, hadd⟩

/-- Settles O33: an angle needs a known id, and under the invariant a known id needs both flags (R151). -/
theorem angleNeedsLockedId : Obligations.AngleNeedsLockedId := by
  intro s t i slot rise obs angle ok hok h hrec
  obtain ⟨-, hi, rfl⟩ := execPclPulse_next.mp h
  obtain ⟨-, hknown, rfl⟩ := pulse_eq_sweepValid (s := s.clearOutput) hi (Result.pulse.inj hrec)
  obtain ⟨hskip, hnot, hsweep⟩ := (hok.sensor hi).decode hknown
  exact ⟨hskip, hnot, hsweep, slotIndex_lt _⟩

/-- Settles O34: PCL.PULSE writes its own sensor, the draws and the output only, and of the two edges only the rising
one. -/
theorem pulseFrame : Obligations.PulseFrame := by
  intro s i rise hs hi
  have hkeeps := pulseKeeps_pulse (s := s.clearOutput) hi rise
  have hwrites : WritesSensor i s (s.clearOutput.pulse i rise).2 :=
    (writesSensor_clearOutput hi).trans (writesSensor_pulse (s := s.clearOutput) hi rise)
  refine ⟨_, exec_pclPulse_eq hs hi rise, hkeeps.lastRise, hkeeps.lastFall, ?_⟩
  obtain ⟨sn, d, o, heq⟩ := hwrites
  rw [pulseAnswer, heq]
  exact ⟨fun j hj => List.getElem?_set_ne hj.symm, List.length_set, rfl, rfl, rfl, rfl, rfl, rfl, rfl, rfl, rfl⟩

section Poll

variable {s t : State} {i : Nat} {w : Wiring}

/-! ## PCL.POLL completes -/

/-- The interleave point completes when the captures due there name existing channels. -/
theorem interleavePoint_completes_of_servicesInRange (h : s.servicesInRange) : ∃ t, s.interleavePoint = some t := by
  cases hl : s.interleave with
  | nil => exact ⟨s, State.interleavePoint_nil hl⟩
  | cons l rest => exact interleavePoint_completes hl h

theorem KeepsProducer.channels_length (h : KeepsProducer s t) : t.channels.length = s.channels.length := by
  simpa using congrArg List.length h.claims

theorem State.readChannel_interleave (s : State) (ch : Nat) (c : Channel) :
    (s.readChannel ch c).2.interleave = s.interleave := by
  rcases s.readChannel_frame ch c with heq | ⟨n, d, o, heq⟩
  all_goals rw [heq]

theorem State.afterFalling_interleave (i : Nat) (x : ReadResult × State) :
    (State.afterFalling i x).interleave = x.2.interleave := by
  unfold State.afterFalling
  split
  · rfl
  · rfl

theorem State.servicesInRange_congr (hinterleave : t.interleave = s.interleave)
    (hlength : t.channels.length = s.channels.length) (h : s.servicesInRange) : t.servicesInRange := by
  rwa [State.servicesInRange, hinterleave, hlength]

theorem interleavePoint_channels_length (h : s.interleavePoint = some t) : t.channels.length = s.channels.length :=
  (keepsConsumer_runServices (s := { s with interleave := s.interleave.tail }) h).channels_length

/-- A poll completes when its two channels exist and so do those of the services at its interleave point. -/
theorem State.poll_completes (hfall : w.fallCh < s.channels.length) (hrise : w.riseCh < s.channels.length)
    (hrange : s.servicesInRange) : ∃ t, s.poll i w = some t := by
  have hcf := List.getElem?_eq_getElem hfall
  have hlength := ((keepsProducer_readChannel hcf).trans (keepsProducer_afterFalling i _)).channels_length
  have hinterleave := (State.afterFalling_interleave i _).trans (s.readChannel_interleave w.fallCh s.channels[w.fallCh])
  obtain ⟨v, hv⟩ := interleavePoint_completes_of_servicesInRange (State.servicesInRange_congr hinterleave hlength hrange)
  have hrise' : w.riseCh < v.channels.length := by
    rw [interleavePoint_channels_length hv, hlength]
    exact hrise
  exact ⟨_, State.poll_eq_some.mpr ⟨_, v, _, hcf, hv, List.getElem?_eq_getElem hrise', rfl⟩⟩

theorem State.afterRising_result (i : Nat) (falling : ReadResult) (x : ReadResult × State) :
    ∃ loss rec, (State.afterRising i falling x).output.result = .polled loss rec := by
  unfold State.afterRising
  split
  · exact ⟨_, _, rfl⟩
  · exact ⟨_, _, rfl⟩

theorem State.poll_result (h : s.poll i w = some t) : ∃ loss rec, t.output.result = .polled loss rec := by
  obtain ⟨cf, v, cr, -, -, -, rfl⟩ := State.poll_eq_some.mp h
  exact State.afterRising_result i _ _

/-- R155: under the invariant every sensor is wired to channels that exist. -/
theorem State.Ok.wiring (h : s.Ok) (hi : i < s.sensors.length) : ∃ w, s.config.wiring[i]? = some w ∧
    w.fallCh < s.channels.length ∧ w.riseCh < s.channels.length := by
  have hwired : i < s.config.wiring.length := hi.trans_eq h.nSensors
  have hmaps := h.config
  simp only [Config.wellFormed, Config.mapsOk, Bool.and_eq_true, List.all_eq_true, decide_eq_true_eq] at hmaps
  obtain ⟨-, -, hall⟩ := hmaps
  obtain ⟨hfall, hrise, -⟩ := hall _ (List.getElem_mem hwired)
  exact ⟨_, List.getElem?_eq_getElem hwired, h.nChannels.symm ▸ hfall, h.nChannels.symm ▸ hrise⟩

end Poll

/-- Settles O35: both reads find no sample, and the interleave point of an empty schedule is no step. -/
theorem pollWithoutSamples : Obligations.PollWithoutSamples := by
  intro s i w cf cr hs hi hw hcf hcr hfall hrise hinterleave
  refine execPclPoll_next.mpr ⟨hs, hi, w, hw, State.poll_eq_some.mpr ⟨cf, s.clearOutput, cr, hcf, ?_, hcr, ?_⟩⟩
  · rw [State.readChannel_of_indices_eq _ _ hfall]
    exact State.interleavePoint_nil hinterleave
  · rw [State.readChannel_of_indices_eq _ _ hfall, State.readChannel_of_indices_eq _ _ hrise]
    rfl

/-- Settles O37: the wiring gives the poll two channels that exist. -/
theorem pollCompletes : Obligations.PollCompletes := by
  intro s i hok hs hi hrange
  obtain ⟨w, hw, hfall, hrise⟩ := hok.wiring hi
  obtain ⟨t, ht⟩ := State.poll_completes (s := s.clearOutput) (i := i) hfall hrise hrange
  obtain ⟨loss, rec, hresult⟩ := State.poll_result ht
  exact ⟨t, loss, rec, execPclPoll_next.mpr ⟨hs, hi, w, hw, ht⟩, hresult⟩

end Sys2Proof.Machine

/-! The OOTXDecoder bit by bit (42_ootx_decoder.md R171 to R183): the answer of OOTX.ADD for each form of a step, the
window that the preamble hunt has seen, and how far a decoder is from the next write of its frame registers. -/

namespace Sys2Proof.Machine

section DecoderAnswers

variable {s : State} {i : Nat} {sn : Sensor} {f g : FrameState} {conds : List Condition} {bit : BitVec 32}

/-! ## One OOTX.ADD, by the form of its step -/

/-- OOTX.ADD writes one decoder and reports what its step raises. -/
theorem exec_ootxAdd_of_add (hs : s.inService = false) (hsn : s.sensors[i]? = some sn)
    (hadd : sn.frame.add i bit = (g, conds)) :
    exec (.ootxAdd i bit) s = .next
      { s with sensors := s.sensors.set i { sn with frame := g }, output := ⟨.nothing, conds⟩ } := by
  have hsensor : s.clearOutput.sensor i = sn := s.sensor_of_getElem? hsn
  refine execOotxAdd_next.mpr ⟨hs, State.lt_of_getElem? hsn, ?_⟩
  rw [State.ootxAdd_eq, hsensor, hadd]
  rfl

/-- A decoder written outside a service, as an update of the state before. -/
theorem State.clearOutput_setFrame (hsn : s.sensors[i]? = some sn) (g : FrameState) :
    s.clearOutput.setFrame i g =
      { s with sensors := s.sensors.set i { sn with frame := g }, output := ⟨.nothing, []⟩ } := by
  rw [← s.sensor_of_getElem? hsn]
  rfl

theorem FrameState.add_of_malformed (hbit : 1 < bit.toNat) : f.add i bit = (f.rearm, [.protocolResync i]) :=
  if_pos hbit

theorem FrameState.add_of_preamble (hbit : bit.toNat ≤ 1) (hmode : f.mode = .preamble) :
    f.add i bit = (f.preambleStep (bit.getLsbD 0), []) := by
  rw [FrameState.add, if_neg (Nat.not_lt.mpr hbit), if_pos hmode]

theorem FrameState.add_of_word (hbit : bit.toNat ≤ 1) (hmode : f.mode ≠ .preamble) :
    f.add i bit = f.wordStep i (bit.getLsbD 0) := by
  rw [FrameState.add, if_neg (Nat.not_lt.mpr hbit), if_neg hmode]

/-- An operand of 0 or 1 is its low bit. -/
theorem bitOperand_getLsbD_zero (hbit : bit.toNat ≤ 1) : bitOperand (bit.getLsbD 0) = bit := by
  have hcases : bit = 0 ∨ bit = 1 := by bv_omega
  rcases hcases with rfl | rfl
  · rfl
  · rfl

theorem FrameState.shift_operand (f : FrameState) (hbit : bit.toNat ≤ 1) :
    f.shift (bit.getLsbD 0) = { f with acc := f.acc <<< 1 ||| bit.setWidth 18, nbits := f.nbits + 1 } := by
  have hlow : (BitVec.ofBool (bit.getLsbD 0)).setWidth 18 = bit.setWidth 18 := by
    conv_rhs => rw [← bitOperand_getLsbD_zero hbit]
    cases bit.getLsbD 0
    · rfl
    · rfl
  rw [FrameState.shift, hlow]

/-! ## The last bit of a word -/

/-- The decoder with an empty shift register, as every whole word leaves it (R175). -/
def FrameState.emptied (f : FrameState) : FrameState := { f with acc := 0, nbits := 0 }

theorem FrameState.shift_getLsbD_zero (f : FrameState) (b : Bool) : (f.shift b).acc.getLsbD 0 = b := by
  simp [FrameState.shift]

/-- The word received is the low 16 bits held before its sync bit. -/
theorem FrameState.received_eq (f : FrameState) (b : Bool) : f.received b = f.acc.setWidth 16 := by
  apply BitVec.eq_of_getLsbD_eq
  intro j hj
  have hin : 1 + j < 18 := by omega
  simp [FrameState.received, FrameState.shift, hj, hin, BitVec.getLsbD_eq_getElem, Nat.lt_trans hj]

theorem FrameState.wordStep_of_lt (b : Bool) (hbits : f.nbits < 16) : f.wordStep i b = (f.shift b, []) :=
  if_pos (Nat.succ_lt_succ hbits)

theorem FrameState.wordStep_syncFalse (hbits : f.nbits = 16) : f.wordStep i false = (f.rearm, [.protocolResync i]) := by
  rw [FrameState.wordStep, if_neg (by rw [FrameState.shift_nbits]; omega), if_pos (f.shift_getLsbD_zero false)]
  rfl

theorem FrameState.wordStep_syncTrue (hbits : f.nbits = 16) :
    f.wordStep i true =
      if f.mode = .length then f.emptied.lengthWord i (f.acc.setWidth 16)
      else (f.emptied.dataWord (f.acc.setWidth 16), []) := by
  rw [FrameState.wordStep, if_neg (by rw [FrameState.shift_nbits]; omega),
    if_neg (by rw [FrameState.shift_getLsbD_zero]; decide), ← f.received_eq true]
  rfl

/-- R175: a sync bit of 1 hands the word on, with the shift register emptied. -/
theorem FrameState.add_one_of_last (hmode : f.mode ≠ .preamble) (hbits : f.nbits = 16) :
    f.add i 1 =
      if f.mode = .length then f.emptied.lengthWord i (f.acc.setWidth 16)
      else (f.emptied.dataWord (f.acc.setWidth 16), []) :=
  (FrameState.add_of_word (bit := 1) (by decide) hmode).trans (FrameState.wordStep_syncTrue hbits)

theorem FrameState.dataWord_of_le {word : BitVec 16} (h : f.length ≤ f.rxCount + 2) :
    f.dataWord word = { (f.storeWord word).rearm with complete := true } :=
  if_pos h

theorem FrameState.storeWord_get_ne (f : FrameState) (w : BitVec 16) {j : Nat} (hhigh : j ≠ f.rxCount)
    (hlow : j ≠ f.rxCount + 1) : (f.storeWord w).ob.get j = f.ob.get j :=
  (Bank.get_set_ne _ _ hlow).trans (Bank.get_set_ne _ _ hhigh)

/-- The limit of R177 in terms of the payload length (R176). -/
theorem frameTotal_le_iff (word : BitVec 16) : frameTotal word ≤ 256 ↔ word.toNat ≤ 252 := by
  unfold frameTotal framePad; omega

end DecoderAnswers

/-- Settles O39: a malformed operand is met before the mode is looked at. -/
theorem malformedBitResets : Obligations.MalformedBitResets :=
  fun _ _ _ _ hs hsn hbit => exec_ootxAdd_of_add hs hsn (FrameState.add_of_malformed hbit)

/-- Settles O44: OOTX.ACK writes one decoder, in its completion flag. -/
theorem ackClearsComplete : Obligations.AckClearsComplete := by
  intro s i sn hs hsn
  refine execOotxAck_next.mpr ⟨hs, State.lt_of_getElem? hsn, ?_⟩
  rw [s.sensor_of_getElem? hsn, State.clearOutput_setFrame hsn]

/-- Settles O45: OOTX.RST is the reset of R171 and raises nothing. -/
theorem rearmWritesShiftRegister : Obligations.RearmWritesShiftRegister := by
  intro s i sn hs hsn
  refine execOotxRst_next.mpr ⟨hs, State.lt_of_getElem? hsn, ?_⟩
  rw [s.sensor_of_getElem? hsn, State.clearOutput_setFrame hsn]
  rfl

/-- Settles O40: the three branches of the preamble step. -/
theorem preambleStep : Obligations.PreambleStep := by
  intro s i bit sn hs hsn hbit hmode acc
  refine exec_ootxAdd_of_add hs hsn ?_
  rw [FrameState.add_of_preamble hbit hmode]
  have hacc : (sn.frame.shift (bit.getLsbD 0)).acc = acc := by rw [FrameState.shift_operand _ hbit]
  rcases sn.frame.preambleStep_cases (bit.getLsbD 0) with ⟨hfull, hmatch, heq⟩ | ⟨hfull, hmatch, heq⟩ | ⟨hfull, heq⟩
  all_goals rw [heq]
  · rw [if_neg (by omega), if_pos (hacc ▸ hmatch)]
  · rw [if_neg (by omega), if_neg (hacc ▸ hmatch), hacc]
  · rw [if_pos (by omega), FrameState.shift_operand _ hbit]

/-- Settles O41: a bit before the seventeenth is shifted in, and a seventeenth bit of 0 resets. -/
theorem wordBits_shiftOrReset : Obligations.WordBits := by
  intro s i bit sn hs hsn hbit hmode
  refine ⟨fun hbits => exec_ootxAdd_of_add hs hsn ?_, fun hbits hzero => exec_ootxAdd_of_add hs hsn ?_⟩
  · rw [FrameState.add_of_word hbit hmode, FrameState.wordStep_of_lt _ hbits, FrameState.shift_operand _ hbit]
  · subst hzero
    exact (FrameState.add_of_word hbit hmode).trans (FrameState.wordStep_syncFalse hbits)

/-- Settles O42: a seventeenth bit of 1 in the mode LENGTH is the length-word step, which overflows above 252. -/
theorem lengthWord : Obligations.LengthWord := by
  intro s i sn hs hsn hmode hbits total
  have hadd : sn.frame.add i 1 = sn.frame.emptied.lengthWord i (sn.frame.acc.setWidth 16) := by
    rw [FrameState.add_one_of_last (by rw [hmode]; decide) hbits, if_pos hmode]
  refine ⟨fun hfits => exec_ootxAdd_of_add hs hsn ?_, fun hover => exec_ootxAdd_of_add hs hsn ?_⟩
  · rw [hadd, FrameState.lengthWord, if_neg (Nat.not_lt.mpr ((frameTotal_le_iff _).mpr hfits))]
    rfl
  · rw [hadd, FrameState.lengthWord,
      if_pos (Nat.lt_of_not_le fun hle => Nat.not_le.mpr hover ((frameTotal_le_iff _).mp hle))]
    rfl

/-- Settles O43: a seventeenth bit of 1 in the mode DATA stores the word, and completes the frame at its length. -/
theorem dataWord : Obligations.DataWord := by
  intro s i sn hs hsn hmode hbits
  have hadd : sn.frame.add i 1 = (sn.frame.emptied.dataWord (sn.frame.acc.setWidth 16), []) := by
    rw [FrameState.add_one_of_last (by rw [hmode]; decide) hbits, if_neg (by rw [hmode]; decide)]
  refine ⟨(sn.frame.storeWord (sn.frame.acc.setWidth 16)).ob, exec_ootxAdd_of_add hs hsn ?_,
    sn.frame.storeWord_get_high _, sn.frame.storeWord_get_low _, fun j hhigh hlow =>
      sn.frame.storeWord_get_ne _ hhigh hlow⟩
  rw [hadd]
  by_cases hmore : sn.frame.rxCount + 2 < sn.frame.length
  · rw [if_pos hmore, FrameState.dataWord_of_lt (f := sn.frame.emptied) hmore]
    rfl
  · rw [if_neg hmore, FrameState.dataWord_of_le (f := sn.frame.emptied) (Nat.le_of_not_lt hmore)]
    rfl

section FlippedSync

variable {f : FrameState} {i : Nat}

/-- R175: up to the sync bit, the bits of a word reach the shift register only, whatever it held before. -/
theorem FrameState.feed_withinWord (bits : List Bool) (hmode : f.mode ≠ .preamble)
    (hroom : f.nbits + bits.length ≤ 16) :
    ∃ acc, f.feed i bits = { f with acc := acc, nbits := f.nbits + bits.length } := by
  induction bits generalizing f with
  | nil => exact ⟨f.acc, rfl⟩
  | cons b bs ih =>
    rw [List.length_cons] at hroom
    obtain ⟨acc, hacc⟩ := ih (f := f.shift b) hmode (by rw [FrameState.shift_nbits]; omega)
    refine ⟨acc, ?_⟩
    rw [FrameState.feed_cons, FrameState.add_bit_word b hmode, FrameState.wordStep_shift b (by omega), hacc,
      List.length_cons, Nat.add_comm bs.length, ← Nat.add_assoc]
    rfl

end FlippedSync

/-- Settles O47: sixteen bits fill the shift register, and the sync bit 0 resets. -/
theorem flippedSyncDiscardsFrame : Obligations.FlippedSyncDiscardsFrame := by
  intro i f word hmode hbits
  obtain ⟨acc, hword⟩ := FrameState.feed_withinWord (f := f) (i := i)
    ((List.range 16).map fun k => word.getLsbD (15 - k)) hmode (by simp [hbits])
  rw [wordBits, FrameState.feed_append, hword, FrameState.feed_singleton,
    FrameState.add_bit_word (f := { f with acc := acc, nbits := _ }) false hmode,
    FrameState.wordStep_syncFalse (f := { f with acc := acc, nbits := _ }) (by simp [hbits])]
  rfl

section RollingWindow

variable {f : FrameState} {i : Nat} {bits : List Bool}

/-! ## The window of the preamble hunt -/

/-- The last 18 bits received, the newest lowest, zeros before the first. -/
def receivedWindow (bits : List Bool) : BitVec 18 :=
  bits.foldl (fun acc b => acc <<< 1 ||| (BitVec.ofBool b).setWidth 18) 0

theorem receivedWindow_concat (bits : List Bool) (b : Bool) :
    receivedWindow (bits ++ [b]) = receivedWindow bits <<< 1 ||| (BitVec.ofBool b).setWidth 18 :=
  List.foldl_concat ..

theorem receivedWindow_getLsbD (bits : List Bool) {k : Nat} (hk : k < 18) :
    (receivedWindow bits).getLsbD k = bits.reverse.getD k false := by
  induction bits using List.reverseRecOn generalizing k with
  | nil => simp [receivedWindow]
  | append_singleton bits b ih =>
    rw [receivedWindow_concat, List.reverse_append, List.reverse_singleton, List.singleton_append]
    cases k with
    | zero => simp
    | succ k => simpa [hk, BitVec.getLsbD_eq_getElem (Nat.lt_of_succ_lt hk)] using ih (Nat.lt_of_succ_lt hk)

/-- R173: once 18 bits are there, the window is 0x00001 exactly after seventeen zeros and a one. -/
theorem receivedWindow_eq_one_iff (hlen : 18 ≤ bits.length) : receivedWindow bits = 1 ↔ preambleBits <:+ bits := by
  have hone : (1 : BitVec 18) = receivedWindow preambleBits := by decide
  rw [hone, ← List.reverse_prefix, List.prefix_iff_getElem?]
  have hbit : ∀ k (hk : k < preambleBits.reverse.length),
      bits.reverse[k]? = some preambleBits.reverse[k] ↔
        (receivedWindow bits).getLsbD k = (receivedWindow preambleBits).getLsbD k := by
    intro k hk
    have hk18 : k < 18 := hk
    have hin : k < bits.reverse.length := by rw [List.length_reverse]; omega
    rw [receivedWindow_getLsbD _ hk18, receivedWindow_getLsbD _ hk18, List.getD_eq_getElem _ _ hin,
      List.getD_eq_getElem _ _ hk, List.getElem?_eq_getElem hin, Option.some.injEq]
  exact ⟨fun heq k hk => (hbit k hk).mpr (by rw [heq]),
    fun hall => BitVec.eq_of_getLsbD_eq fun k hk => (hbit k hk).mp (hall k hk)⟩

/-- While at most 17 bits are there, dropping the oldest of the window drops none of them. -/
theorem receivedWindow_and_of_le (hlen : bits.length ≤ 17) : receivedWindow bits &&& 0x1FFFF = receivedWindow bits := by
  have hmask : (0x1FFFF : BitVec 18) = BitVec.ofNat 18 (2 ^ 17 - 1) := rfl
  apply BitVec.eq_of_getLsbD_eq
  intro k hk
  by_cases htop : k = 17
  · subst htop
    have hzero : (receivedWindow bits).getLsbD 17 = false := by
      rw [receivedWindow_getLsbD _ hk, List.getD_eq_default _ _ (by rwa [List.length_reverse])]
    rw [BitVec.getLsbD_and, hzero, Bool.false_and]
  · have hset : (0x1FFFF : BitVec 18).getLsbD k = true := by
      have hlow : k < 17 := by omega
      rw [hmask, BitVec.getLsbD_ofNat, Nat.testBit_two_pow_sub_one, decide_eq_true hk, decide_eq_true hlow]
      rfl
    rw [BitVec.getLsbD_and, hset, Bool.and_true]

/-- A decoder that has received `bits` since a reset without a match: it holds the newest 17 of them, or all of them
when there are fewer (R174). -/
def FrameState.hunting (f : FrameState) (bits : List Bool) : FrameState :=
  { f with mode := .preamble, acc := receivedWindow bits &&& 0x1FFFF, nbits := min 17 bits.length }

theorem FrameState.hunting_nbits_iff (f : FrameState) (bits : List Bool) :
    (f.hunting bits).nbits = 17 ↔ 17 ≤ bits.length := by
  simp [FrameState.hunting]

/-- The bit that reaches a hunting decoder completes the window. -/
theorem FrameState.hunting_shift_acc (f : FrameState) (bits : List Bool) (b : Bool) :
    ((f.hunting bits).shift b).acc = receivedWindow (bits ++ [b]) := by
  have hdrop : ∀ x : BitVec 18, (x &&& 0x1FFFF) <<< 1 = x <<< 1 := by
    intro x
    apply BitVec.eq_of_toNat_eq
    rw [BitVec.toNat_shiftLeft, BitVec.toNat_shiftLeft, BitVec.toNat_and,
      show BitVec.toNat (0x1FFFF : BitVec 18) = 2 ^ 17 - 1 from rfl, Nat.and_two_pow_sub_one_eq_mod,
      Nat.shiftLeft_eq, Nat.shiftLeft_eq]
    omega
  rw [receivedWindow_concat, FrameState.shift, FrameState.hunting, hdrop]

/-- R173: with 17 bits held, the step matches exactly when the window of 18 bits is a preamble. -/
theorem FrameState.hunting_match_iff (f : FrameState) {bits : List Bool} (b : Bool)
    (hfull : (f.hunting bits).nbits = 17) :
    ((f.hunting bits).shift b).acc = 1 ↔ preambleBits <:+ bits ++ [b] := by
  rw [FrameState.hunting_shift_acc]
  exact receivedWindow_eq_one_iff (by simpa using (f.hunting_nbits_iff bits).mp hfull)

theorem FrameState.hunting_preambleStep_mode_iff (f : FrameState) (bits : List Bool) (b : Bool) :
    ((f.hunting bits).preambleStep b).mode = .length ↔ preambleBits <:+ bits ++ [b] := by
  rcases (f.hunting bits).preambleStep_cases b with ⟨hfull, hmatch, heq⟩ | ⟨hfull, hmatch, heq⟩ | ⟨hfull, heq⟩
  all_goals rw [heq]
  · exact iff_of_true rfl ((f.hunting_match_iff b (Nat.succ.inj hfull)).mp hmatch)
  · exact iff_of_false nofun fun h => hmatch ((f.hunting_match_iff b (Nat.succ.inj hfull)).mpr h)
  · refine iff_of_false nofun fun h => hfull (congrArg (· + 1) ((f.hunting_nbits_iff bits).mpr ?_))
    simpa [preambleBits] using h.length_le

/-- A bit that completes no preamble leaves the decoder hunting with one more bit received. -/
theorem FrameState.hunting_preambleStep (f : FrameState) {bits : List Bool} {b : Bool}
    (hno : ¬ preambleBits <:+ bits ++ [b]) : (f.hunting bits).preambleStep b = f.hunting (bits ++ [b]) := by
  have hlen : (bits ++ [b]).length = bits.length + 1 := List.length_append
  have hacc := f.hunting_shift_acc bits b
  rcases (f.hunting bits).preambleStep_cases b with ⟨hfull, hmatch, -⟩ | ⟨hfull, -, heq⟩ | ⟨hfull, heq⟩
  · exact absurd ((f.hunting_match_iff b (Nat.succ.inj hfull)).mp hmatch) hno
  · have hheld : 17 ≤ bits.length := (f.hunting_nbits_iff bits).mp (Nat.succ.inj hfull)
    rw [heq, hacc, FrameState.hunting, FrameState.hunting, hlen, Nat.min_eq_left (Nat.le_succ_of_le hheld)]
  · have hroom : bits.length < 17 :=
      Nat.lt_of_not_le fun h => hfull (congrArg (· + 1) ((f.hunting_nbits_iff bits).mpr h))
    have hwindow : receivedWindow (bits ++ [b]) &&& 0x1FFFF = ((f.hunting bits).shift b).acc := by
      rw [receivedWindow_and_of_le (by omega), hacc]
    have hcount : min 17 (bits ++ [b]).length = ((f.hunting bits).shift b).nbits := by
      simp only [FrameState.shift_nbits, FrameState.hunting, hlen]
      omega
    rw [heq, FrameState.hunting.eq_def f (bits ++ [b]), hwindow, hcount]
    rfl

/-- R174: from a fresh reset, the decoder hunts until the first match. -/
theorem FrameState.feed_unmatched (hmode : f.mode = .preamble) (hacc : f.acc = 0) (hbits : f.nbits = 0)
    (hno : ∀ p, p <+: bits → ¬ preambleBits <:+ p) : f.feed i bits = f.hunting bits := by
  induction bits using List.reverseRecOn with
  | nil =>
    have hempty : (receivedWindow [] &&& 0x1FFFF : BitVec 18) = f.acc := by rw [hacc]; decide
    rw [FrameState.hunting, hempty, List.length_nil, Nat.min_zero, ← hbits, ← hmode]
    rfl
  | append_singleton bits b ih =>
    rw [FrameState.feed_append, ih fun p hp => hno p (hp.trans (List.prefix_append bits [b])),
      FrameState.feed_singleton, FrameState.add_bit_preamble b rfl,
      FrameState.hunting_preambleStep f (hno _ (List.prefix_refl _))]

end RollingWindow

/-- Settles O48: nothing has matched before the last bit, so the decoder hunts up to there, and the last bit matches
exactly when the window it completes is a preamble. -/
theorem rollingPreambleMatch : Obligations.RollingPreambleMatch := by
  intro i f bits hmode hacc hbits hno
  cases bits using List.reverseRecOn with
  | nil => simp [FrameState.feed, hmode, preambleBits]
  | append_singleton bits b =>
    have hearlier : ∀ p, p <+: bits → ¬ preambleBits <:+ p := fun p hp =>
      hno p (hp.trans (List.prefix_append bits [b])) fun heq => by
        have hlen := hp.length_le
        simp [heq] at hlen
    rw [FrameState.feed_append, FrameState.feed_unmatched hmode hacc hbits hearlier, FrameState.feed_singleton,
      FrameState.add_bit_preamble b rfl, FrameState.hunting_preambleStep_mode_iff]

section Retention

variable {f : FrameState} {i : Nat}

/-! ## How far a decoder is from the next write of its frame registers -/

/-- The fewest bits whose last can write the length, the padding, the count or the completion flag: a window of 18 bits
and a word of 17 while it hunts, else what is missing from the word. -/
def FrameState.bitsToHeader (f : FrameState) : Nat :=
  if f.mode = .preamble then 35 - f.nbits else 17 - f.nbits

/-- The fewest bits whose last can write a byte of the buffer: one word more before the data words. -/
def FrameState.bitsToByte (f : FrameState) : Nat :=
  if f.mode = .data then f.bitsToHeader else f.bitsToHeader + 17

/-- The frame registers other than the buffer. -/
def FrameState.header (f : FrameState) : Nat × Bool × Nat × Bool := (f.length, f.padding, f.rxCount, f.complete)

theorem FrameState.bitsToHeader_of_preamble (h : f.mode = .preamble) : f.bitsToHeader = 35 - f.nbits := if_pos h

theorem FrameState.bitsToHeader_of_word (h : f.mode ≠ .preamble) : f.bitsToHeader = 17 - f.nbits := if_neg h

theorem FrameState.bitsToByte_of_data (h : f.mode = .data) : f.bitsToByte = f.bitsToHeader := if_pos h

theorem FrameState.bitsToByte_of_not_data (h : f.mode ≠ .data) : f.bitsToByte = f.bitsToHeader + 17 := if_neg h

theorem FrameState.bitsToHeader_le (f : FrameState) : f.bitsToHeader ≤ 35 := by
  unfold FrameState.bitsToHeader
  split_ifs
  · omega
  · omega

theorem FrameState.bitsToByte_le (f : FrameState) : f.bitsToByte ≤ f.bitsToHeader + 17 := by
  unfold FrameState.bitsToByte
  split_ifs
  · omega
  · omega

/-- What one bit may do to a decoder, as far as its frame registers go: each is kept until its count has run down to 1,
and each count falls by at most 1. -/
structure FrameState.Retains (f g : FrameState) : Prop where
  header : 1 < f.bitsToHeader → g.header = f.header
  bytes : 1 < f.bitsToByte → g.ob = f.ob
  header_count : f.bitsToHeader ≤ g.bitsToHeader + 1
  byte_count : f.bitsToByte ≤ g.bitsToByte + 1

theorem FrameState.retains_rearm (f : FrameState) : f.Retains f.rearm := by
  have hheader : f.rearm.bitsToHeader = 35 := FrameState.bitsToHeader_of_preamble rfl
  have hbyte : f.rearm.bitsToByte = f.rearm.bitsToHeader + 17 := FrameState.bitsToByte_of_not_data nofun
  have hle := f.bitsToHeader_le
  have hle' := f.bitsToByte_le
  exact ⟨fun _ => rfl, fun _ => rfl, by omega, by omega⟩

/-- A step that writes only the shift register and takes in one bit. -/
theorem FrameState.retains_of_same_mode {g : FrameState} (hmode : g.mode = f.mode) (hnbits : g.nbits ≤ f.nbits + 1)
    (hheader : g.header = f.header) (hbytes : g.ob = f.ob) : f.Retains g := by
  have hcount : f.bitsToHeader ≤ g.bitsToHeader + 1 := by
    unfold FrameState.bitsToHeader
    rw [hmode]
    split_ifs
    · omega
    · omega
  refine ⟨fun _ => hheader, fun _ => hbytes, hcount, ?_⟩
  unfold FrameState.bitsToByte
  rw [hmode]
  split_ifs
  · exact hcount
  · omega

/-- A window that matches leaves a whole word to come; any other preamble step writes only the shift register. -/
theorem FrameState.retains_preambleStep (hmode : f.mode = .preamble) (b : Bool) : f.Retains (f.preambleStep b) := by
  rcases f.preambleStep_cases b with ⟨hfull, -, heq⟩ | ⟨hfull, -, heq⟩ | ⟨-, heq⟩
  all_goals rw [heq]
  · have hheader := FrameState.bitsToHeader_of_preamble hmode
    have hbyte := f.bitsToByte_le
    refine ⟨fun _ => rfl, fun _ => rfl, ?_, ?_⟩
    · change _ ≤ 17 + 1
      omega
    · change _ ≤ 17 + 17 + 1
      omega
  · exact FrameState.retains_of_same_mode rfl (show 17 ≤ f.nbits + 1 by omega) rfl rfl
  · exact FrameState.retains_of_same_mode rfl (Nat.le_refl _) rfl rfl

/-- The last bit of the length word may write the header, and leaves a whole word to come before a byte is written. -/
theorem FrameState.retains_startData {g : FrameState} (hmode : f.mode = .length) (hbits : 16 ≤ f.nbits)
    (hdata : g.mode = .data) (hempty : g.nbits = 0) (hbytes : g.ob = f.ob) : f.Retains g := by
  have hheader := FrameState.bitsToHeader_of_word (f := f) (by rw [hmode]; decide)
  have hheader' := FrameState.bitsToHeader_of_word (f := g) (by rw [hdata]; decide)
  have hbyte' := FrameState.bitsToByte_of_data hdata
  have hbyte := f.bitsToByte_le
  exact ⟨fun h => by omega, fun _ => hbytes, by omega, by omega⟩

/-- The last bit of a data word may write every register. -/
theorem FrameState.retains_lastOfData (g : FrameState) (hmode : f.mode = .data) (hbits : 16 ≤ f.nbits) :
    f.Retains g := by
  have hheader := FrameState.bitsToHeader_of_word (f := f) (by rw [hmode]; decide)
  have hbyte := FrameState.bitsToByte_of_data hmode
  exact ⟨fun h => by omega, fun h => by omega, by omega, by omega⟩

/-- R183, one bit at a time. -/
theorem FrameState.retains_add (f : FrameState) (i : Nat) (bit : BitVec 32) : f.Retains (f.add i bit).1 := by
  rcases f.add_cases i bit with ⟨-, heq⟩ | ⟨-, hmode, heq⟩ | ⟨-, -, -, heq⟩ | ⟨-, -, -, -, heq⟩ | ⟨-, -, -, -, -, heq⟩ |
    ⟨-, hmode, hbits, -, -, heq⟩ | ⟨-, hmode, hbits, -, heq⟩
  all_goals rw [heq]
  · exact f.retains_rearm
  · exact FrameState.retains_preambleStep hmode _
  · exact FrameState.retains_of_same_mode rfl (Nat.le_refl _) rfl rfl
  · exact f.retains_rearm
  · exact f.retains_rearm
  · exact FrameState.retains_startData hmode hbits rfl rfl rfl
  · exact FrameState.retains_lastOfData _ hmode hbits

/-- A register that a bit keeps until a count has run down to 1, where each bit lowers the count by at most 1, is kept
by fewer bits than the count. -/
theorem FrameState.feed_keeps {α : Type} {count : FrameState → Nat} {reg : FrameState → α}
    (hcount : ∀ (g : FrameState) (bit : BitVec 32), count g ≤ count (g.add i bit).1 + 1)
    (hreg : ∀ (g : FrameState) (bit : BitVec 32), 1 < count g → reg (g.add i bit).1 = reg g)
    {bits : List Bool} (hlen : bits.length < count f) : reg (f.feed i bits) = reg f := by
  induction bits generalizing f with
  | nil => rfl
  | cons b bs ih =>
    rw [List.length_cons] at hlen
    have hstep := hcount f (bitOperand b)
    rw [FrameState.feed_cons, ih (by omega), hreg f _ (by omega)]

end Retention

/-- Settles O49: an empty decoder that hunts is 35 bits from a write of the header and 52 from a write of a byte. -/
theorem retainedFrameIntact : Obligations.RetainedFrameIntact := by
  intro i f bits hmode _ hbits
  have hheader : f.bitsToHeader = 35 := by rw [FrameState.bitsToHeader_of_preamble hmode, hbits]
  have hbyte : f.bitsToByte = 52 := by rw [FrameState.bitsToByte_of_not_data (by rw [hmode]; decide), hheader]
  refine ⟨fun hlen => ?_, fun hlen => ?_⟩
  · have hkept : (f.feed i bits).header = f.header :=
      FrameState.feed_keeps (fun g bit => (g.retains_add i bit).header_count)
        (fun g bit => (g.retains_add i bit).header) (by omega)
    simpa only [FrameState.header, Prod.mk.injEq] using hkept
  · exact FrameState.feed_keeps (fun g bit => (g.retains_add i bit).byte_count)
      (fun g bit => (g.retains_add i bit).bytes) (by omega)

end Sys2Proof.Machine

/-! The PositionSolver (43_position_solver.md): what SOL.SETSRC, SOL.UPDATE and SOL.COMPUTE answer and write by the form of
their step, the unit ray of R204 over the rationals, and that in binary32 lines of one direction are near-singular. -/

namespace Sys2Proof.Machine

section SolverAnswers

variable {s : State} {i : Nat} {sn : Sensor} {slot : BitVec 8} {angle : FloatWord}

/-! ## SOL.COMPUTE, by the end of its solve -/

theorem exec_solCompute_eq (hs : s.inService = false) (hi : i < s.sensors.length) :
    exec (.solCompute i) s =
      .next ((s.clearOutput.compute i).2.returns (.computed (s.clearOutput.compute i).1)) :=
  execSolCompute_next.mpr ⟨hs, hi, rfl⟩

/-- R203, R208: a failed solve writes nothing and raises GeometryFailure. -/
theorem exec_solCompute_of_failed (hs : s.inService = false) (hsn : s.sensors[i]? = some sn)
    (h : solve s.config s.src0 s.src1 sn.fix.angle = .failed) :
    exec (.solCompute i) s = .next { s with output := ⟨.computed false, [.geometryFailure i]⟩ } := by
  rw [← s.sensor_of_getElem? hsn] at h
  rw [exec_solCompute_eq hs (State.lt_of_getElem? hsn), State.compute_of_failed (s := s.clearOutput) h]
  rfl

/-- R209: a successful solve writes position and distance and raises nothing. -/
theorem exec_solCompute_of_solved {pos : Vec3 FloatWord} {dist : FloatWord} (hs : s.inService = false)
    (hsn : s.sensors[i]? = some sn) (h : solve s.config s.src0 s.src1 sn.fix.angle = .solved pos dist) :
    exec (.solCompute i) s = .next
      { s with
        sensors := s.sensors.set i { sn with fix := { sn.fix with pos := pos, dist := dist } }
        output := ⟨.computed true, []⟩ } := by
  have hsensor := s.sensor_of_getElem? hsn
  rw [← hsensor] at h
  rw [exec_solCompute_eq hs (State.lt_of_getElem? hsn), State.compute_of_solved (s := s.clearOutput) h, ← hsensor]
  rfl

/-! ## SOL.UPDATE, by its slot and the mask -/

theorem exec_solUpdate_eq (hs : s.inService = false) (hi : i < s.sensors.length) (slot : BitVec 8) (angle : FloatWord) :
    exec (.solUpdate i slot angle) s =
      .next ((s.clearOutput.update i slot.toNat angle).2.returns
        (.updated (s.clearOutput.update i slot.toNat angle).1)) :=
  execSolUpdate_next.mpr ⟨hs, hi, rfl⟩

theorem State.update_of_outOfRange {k : Nat} (hk : 4 ≤ k) : s.update i k angle = (false, s) :=
  if_pos hk

theorem State.storeAngle_fresh (hi : i < s.sensors.length) (k : Nat) (angle : FloatWord) :
    ((s.storeAngle i k angle).sensor i).fix.fresh = markFresh (s.sensor i).fix.fresh k := by
  rw [State.storeAngle, s.sensor_setFix_self _ hi]

theorem State.update_of_notFull {k : Nat} (hi : i < s.sensors.length) (hk : k < 4)
    (h : markFresh (s.sensor i).fix.fresh k ≠ 0b1111#4) :
    s.update i k angle = (false, s.storeAngle i k angle) := by
  rcases s.update_cases i k angle with ⟨hge, -⟩ | ⟨-, -, heq⟩ | ⟨-, hfresh, -⟩
  · exact absurd hk (Nat.not_lt.mpr hge)
  · exact heq
  · rw [State.storeAngle_fresh hi] at hfresh
    exact absurd (eq_of_beq hfresh) h

theorem State.update_of_full {k : Nat} (hi : i < s.sensors.length) (hk : k < 4)
    (h : markFresh (s.sensor i).fix.fresh k = 0b1111#4) :
    s.update i k angle =
      (((s.storeAngle i k angle).compute i).1, ((s.storeAngle i k angle).compute i).2.clearFresh i) := by
  rcases s.update_cases i k angle with ⟨hge, -⟩ | ⟨-, hfresh, -⟩ | ⟨-, -, heq⟩
  · exact absurd hk (Nat.not_lt.mpr hge)
  · rw [State.storeAngle_fresh hi, h] at hfresh
    cases hfresh
  · exact heq

/-- R202: a slot out of range changes nothing. -/
theorem exec_solUpdate_of_outOfRange (hs : s.inService = false) (hi : i < s.sensors.length) (hslot : 4 ≤ slot.toNat) :
    exec (.solUpdate i slot angle) s = .next { s with output := ⟨.updated false, []⟩ } := by
  rw [exec_solUpdate_eq hs hi, State.update_of_outOfRange hslot]
  rfl

/-- R202: short of four fresh slots, the angle and its mark are all that is written. -/
theorem exec_solUpdate_of_notFull (hs : s.inService = false) (hsn : s.sensors[i]? = some sn) (hslot : slot.toNat < 4)
    (h : markFresh sn.fix.fresh slot.toNat ≠ 0b1111#4) :
    exec (.solUpdate i slot angle) s = .next
      { s with
        sensors := s.sensors.set i { sn with fix := { sn.fix with
          angle := angleSet sn.fix.angle slot.toNat angle, fresh := markFresh sn.fix.fresh slot.toNat } }
        output := ⟨.updated false, []⟩ } := by
  have hi := State.lt_of_getElem? hsn
  have hsensor := s.sensor_of_getElem? hsn
  rw [← hsensor] at h
  rw [exec_solUpdate_eq hs hi, State.update_of_notFull (s := s.clearOutput) hi hslot h, ← hsensor]
  rfl

theorem angleSet_toNat (a : Angles FloatWord) (hslot : slot.toNat < 4) (v : FloatWord) :
    angleSet a slot.toNat v =
      ⟨if slot = 0 then v else a.slot0, if slot = 1 then v else a.slot1,
       if slot = 2 then v else a.slot2, if slot = 3 then v else a.slot3⟩ := by
  have hcases : slot = 0 ∨ slot = 1 ∨ slot = 2 ∨ slot = 3 := by bv_omega
  rcases hcases with rfl | rfl | rfl | rfl
  all_goals rfl

/-! ## The freshness mask -/

theorem markFresh_getLsbD {j : Nat} (fresh : BitVec 4) (k : Nat) (hj : j < 4) :
    (markFresh fresh k).getLsbD j = (fresh.getLsbD j || decide (j = k)) := by
  have hbit : (1#4 <<< k).getLsbD j = decide (j = k) := by
    rw [BitVec.getLsbD_shiftLeft, BitVec.getLsbD_one, Bool.eq_iff_iff]
    simp only [Bool.and_eq_true, Bool.not_eq_true', decide_eq_true_eq, decide_eq_false_iff_not]
    omega
  rw [markFresh, BitVec.getLsbD_or, hbit]

theorem fullMask_getLsbD {j : Nat} (hj : j < 4) : (0b1111#4).getLsbD j = true :=
  (BitVec.getLsbD_allOnes (v := 4)).trans (decide_eq_true hj)

/-- A slot out of range marks nothing. -/
theorem markFresh_of_outOfRange {k : Nat} (fresh : BitVec 4) (hk : 4 ≤ k) : markFresh fresh k = fresh := by
  apply BitVec.eq_of_getLsbD_eq
  intro j hj
  rw [markFresh_getLsbD fresh k hj, decide_eq_false (by omega), Bool.or_false]

/-- Three marks leave one of the four slots out. -/
theorem markFresh_three_ne (k1 k2 k3 : Nat) : markFresh (markFresh (markFresh 0 k1) k2) k3 ≠ 0b1111#4 := by
  intro hfull
  have hmarked : ∀ j < 4, j = k1 ∨ j = k2 ∨ j = k3 := by
    intro j hj
    have hset := fullMask_getLsbD hj
    rw [← hfull, markFresh_getLsbD _ _ hj, markFresh_getLsbD _ _ hj, markFresh_getLsbD _ _ hj] at hset
    simpa [or_assoc] using hset
  have h0 := hmarked 0 (by decide)
  have h1 := hmarked 1 (by decide)
  have h2 := hmarked 2 (by decide)
  have h3 := hmarked 3 (by decide)
  omega

/-- A mask that a further mark leaves short of full is short of full. -/
theorem ne_full_of_markFresh {fresh : BitVec 4} {k : Nat} (h : markFresh fresh k ≠ 0b1111#4) : fresh ≠ 0b1111#4 := by
  rintro rfl
  refine h (BitVec.eq_of_getLsbD_eq fun j hj => ?_)
  rw [markFresh_getLsbD _ _ hj, fullMask_getLsbD hj, Bool.true_or]

/-- An update that does not complete the mask, whatever its slot: no solve, and the mark is the only change of the mask. -/
theorem exec_solUpdate_short (hs : s.inService = false) (hsn : s.sensors[i]? = some sn) (slot : BitVec 8)
    (angle : FloatWord) (h : markFresh sn.fix.fresh slot.toNat ≠ 0b1111#4) :
    ∃ t tn, exec (.solUpdate i slot angle) s = .next t ∧ t.inService = false ∧ t.sensors[i]? = some tn ∧
      t.output = ⟨.updated false, []⟩ ∧ tn.fix.fresh = markFresh sn.fix.fresh slot.toNat ∧
      tn.fix.pos = sn.fix.pos ∧ tn.fix.dist = sn.fix.dist := by
  have hi := State.lt_of_getElem? hsn
  by_cases hslot : 4 ≤ slot.toNat
  · exact ⟨_, sn, exec_solUpdate_of_outOfRange hs hi hslot, hs, hsn, rfl, (markFresh_of_outOfRange _ hslot).symm, rfl, rfl⟩
  · exact ⟨_, _, exec_solUpdate_of_notFull hs hsn (Nat.not_le.mp hslot) h, hs, List.getElem?_set_self hi, rfl, rfl, rfl,
      rfl⟩

end SolverAnswers

/-- Settles O50: the write of one record, for each of the two sources. -/
theorem setSourceWritesRecord : Obligations.SetSourceWritesRecord := by
  intro s rot origin hs
  refine ⟨execSolSetsrc_next.mpr ⟨hs, ?_⟩, execSolSetsrc_next.mpr ⟨hs, ?_⟩⟩
  · rw [State.setSource_zero]
    rfl
  · rw [State.setSource_one]
    rfl

/-- Settles O51: the first two branches of SOL.UPDATE. -/
theorem updateStoresAngle : Obligations.UpdateStoresAngle := by
  intro s i slot angle sn hs hsn
  refine ⟨exec_solUpdate_of_outOfRange hs (State.lt_of_getElem? hsn), fun hslot hfresh => ?_⟩
  rw [exec_solUpdate_of_notFull hs hsn hslot hfresh, angleSet_toNat _ hslot]
  rfl

/-- Settles O52: the third branch of SOL.UPDATE runs SOL.COMPUTE on the state with the angle stored. -/
theorem fourthUpdateSolves : Obligations.FourthUpdateSolves := by
  intro s i slot angle sn hs hsn hslot hfull stored
  have hi := State.lt_of_getElem? hsn
  have hsensor : s.clearOutput.sensor i = sn := s.sensor_of_getElem? hsn
  have hstored : s.clearOutput.storeAngle i slot.toNat angle = stored.clearOutput := by
    rw [State.storeAngle, hsensor, markFresh, hfull, State.setFix, hsensor]
    rfl
  refine ⟨_, _, exec_solCompute_eq (s := stored) hs (by simpa [stored] using hi), rfl, ?_⟩
  rw [exec_solUpdate_eq hs hi, State.update_of_full (s := s.clearOutput) hi hslot (by rw [hsensor]; exact hfull), hstored]
  rfl

/-- Settles O53: three marks never fill the mask, so each of the three updates takes a branch without a solve. -/
theorem freshnessGating : Obligations.FreshnessGating := by
  intro s i sn k1 k2 k3 a1 a2 a3 hs hsn hclear
  have hshort3 := markFresh_three_ne k1.toNat k2.toNat k3.toNat
  have hshort2 := ne_full_of_markFresh hshort3
  have hshort1 := ne_full_of_markFresh hshort2
  rw [← hclear] at hshort1 hshort2 hshort3
  obtain ⟨t1, sn1, hexec1, hs1, hsn1, hout1, hfresh1, hpos1, hdist1⟩ := exec_solUpdate_short hs hsn k1 a1 hshort1
  rw [← hfresh1] at hshort2 hshort3
  obtain ⟨t2, sn2, hexec2, hs2, hsn2, hout2, hfresh2, hpos2, hdist2⟩ := exec_solUpdate_short hs1 hsn1 k2 a2 hshort2
  rw [← hfresh2] at hshort3
  obtain ⟨t3, sn3, hexec3, -, hsn3, hout3, -, hpos3, hdist3⟩ := exec_solUpdate_short hs2 hsn2 k3 a3 hshort3
  refine ⟨t1, t2, t3, hexec1, hexec2, hexec3, hout1, hout2, hout3, ?_⟩
  rw [t3.sensor_of_getElem? hsn3]
  exact ⟨hpos3.trans (hpos2.trans hpos1), hdist3.trans (hdist2.trans hdist1)⟩

section Solves

variable {c : Config} {l0 l1 : LightSource} {a : Angles FloatWord}

/-! ## What a solve gives -/

theorem solve_of_unsupplied (h : l0.valid = false ∨ l1.valid = false) : solve c l0 l1 a = .failed := by
  have hvalid : ¬ (l0.valid && l1.valid) = true := by
    rcases h with h | h
    all_goals simp [h]
  exact if_neg hvalid

theorem solve_of_near_singular (hvalid0 : l0.valid = true) (hvalid1 : l1.valid = true)
    (h : triangulate c l0 l1 a = some none) : solve c l0 l1 a = .failed := by
  simp [solve, hvalid0, hvalid1, h]

theorem solve_of_intersection {pos : Vec3 FloatWord} {dist : FloatWord} (hvalid0 : l0.valid = true)
    (hvalid1 : l1.valid = true) (h : triangulate c l0 l1 a = some (some (pos, dist))) :
    solve c l0 l1 a = .solved pos dist := by
  simp [solve, hvalid0, hvalid1, h]

theorem worldRay_eq_some {l : LightSource} {θ1 θ2 : FloatWord} {r d : Vec3 FloatWord}
    (hray : localRay c θ1 θ2 = some r) (hrot : rotate (arithOf c.numerics) l.rot r = some d) :
    worldRay c l θ1 θ2 = some d := by
  rw [worldRay, hray]
  exact hrot

/-- R203: with finite inputs and two world rays, the solve is the intersection of the two lines. -/
theorem triangulate_eq_intersect {d0 d1 : Vec3 FloatWord} (hfinite0 : sourceFinite (arithOf c.numerics) l0 = true)
    (hfinite1 : sourceFinite (arithOf c.numerics) l1 = true) (hfinite : anglesFinite (arithOf c.numerics) a = true)
    (hray0 : worldRay c l0 a.slot0 a.slot1 = some d0) (hray1 : worldRay c l1 a.slot2 a.slot3 = some d1) :
    triangulate c l0 l1 a = intersect (arithOf c.numerics) c.solveEps l0.origin d0 l1.origin d1 := by
  simp [triangulate, hfinite0, hfinite1, hfinite, hray0, hray1]

variable {α : Type} {A : Arith α} {eps : α} {p0 d0 p1 d1 : Vec3 α}

theorem intersect_of_near_singular (h : closestApproach A eps p0 d0 p1 d1 = some none) :
    intersect A eps p0 d0 p1 d1 = some none := by
  simp [intersect, h]

theorem intersect_of_points {q0 q1 pos : Vec3 α} {dist : α}
    (h : closestApproach A eps p0 d0 p1 d1 = some (some (q0, q1))) (hpos : midpointOf A q0 q1 = some pos)
    (hdist : separation A q0 q1 = some dist) : intersect A eps p0 d0 p1 d1 = some (some (pos, dist)) := by
  simp [intersect, h, hpos, hdist]

end Solves

/-- Settles O54: a solve without both records fails before it looks at a value. -/
theorem computeNeedsBothSources : Obligations.ComputeNeedsBothSources :=
  fun s _ hs hi hunsupplied => exec_solCompute_of_failed hs (s.getElem?_sensor hi) (solve_of_unsupplied hunsupplied)

/-- Settles O55: the solve is the intersection of the two world lines, which is near-singular or has a midpoint and a
separation. -/
theorem computeSolvesOrFails : Obligations.ComputeSolvesOrFails := by
  intro s i sn r0 r1 d0 d1 hs hsn A ray near hvalid0 hvalid1 hfinite0 hfinite1 hfinite hray0 hray1 hrot0 hrot1
  have hlocal : ∀ θ1 θ2, ray θ1 θ2 = localRay s.config θ1 θ2 := by
    intro θ1 θ2
    cases h : s.config.rayLocal with
    | planeNormals => simp only [ray, localRay, h, A]
    | platform id axis1 axis2 firstTimesSecond => simp only [ray, localRay, h, A, Option.bind_eq_bind]
  rw [hlocal] at hray0 hray1
  have hlines := triangulate_eq_intersect hfinite0 hfinite1 hfinite (worldRay_eq_some hray0 hrot0)
    (worldRay_eq_some hray1 hrot1)
  refine ⟨fun hnear => ?_, fun q0 q1 pos dist hnear hpos hdist => ?_⟩
  · exact exec_solCompute_of_failed hs hsn
      (solve_of_near_singular hvalid0 hvalid1 (hlines.trans (intersect_of_near_singular hnear)))
  · exact exec_solCompute_of_solved hs hsn
      (solve_of_intersection hvalid0 hvalid1 (hlines.trans (intersect_of_points hnear hpos hdist)))

/-- Settles O56: the frame of a solve, from an operation's empty output. -/
theorem computeFrame : Obligations.ComputeFrame := by
  intro s i sn hs hsn
  have hi := State.lt_of_getElem? hsn
  obtain ⟨pos, dist, draws, hframe⟩ := s.clearOutput.compute_frame i hi
  refine ⟨pos, dist, draws, (s.clearOutput.compute i).1, ?_⟩
  rw [exec_solCompute_eq hs hi, hframe, ← s.sensor_of_getElem? hsn]
  rfl

/-- Settles O57: a solve is a function of the records and the four angles. -/
theorem computeHasNoMemory : Obligations.ComputeHasNoMemory := by
  intro s t u i j ht hu hangle hspecified
  obtain ⟨hs, hi, -⟩ := execSolCompute_next.mp ht
  obtain ⟨-, hj, -⟩ := execSolCompute_next.mp hu
  have hsni := s.getElem?_sensor hi
  have hsnj := s.getElem?_sensor hj
  cases h : solve s.config s.src0 s.src1 (s.sensor i).fix.angle with
  | failed =>
    cases ht.symm.trans (exec_solCompute_of_failed hs hsni h)
    cases hu.symm.trans (exec_solCompute_of_failed hs hsnj (hangle ▸ h))
    exact ⟨rfl, nofun⟩
  | solved pos dist =>
    cases ht.symm.trans (exec_solCompute_of_solved hs hsni h)
    cases hu.symm.trans (exec_solCompute_of_solved hs hsnj (hangle ▸ h))
    refine ⟨rfl, fun _ => ?_⟩
    rw [State.sensor_of_getElem? (i := i) _ (List.getElem?_set_self hi),
      State.sensor_of_getElem? (i := j) _ (List.getElem?_set_self hj)]
    exact ⟨rfl, rfl⟩
  | unspecified => exact absurd h hspecified

section UnitRay

variable {pi : Rat} {sqrt sin cos : Rat → Option Rat}

/-! ## The ray over the rationals -/

/-- `u × v` over the rationals. -/
def ratCross (u v : Vec3 Rat) : Vec3 Rat :=
  ⟨u.y * v.z - u.z * v.y, u.z * v.x - u.x * v.z, u.x * v.y - u.y * v.x⟩

theorem cross_exact (u v : Vec3 Rat) : cross (exactArith pi sqrt sin cos) u v = some (ratCross u v) := rfl

/-- A quotient that exists has a divisor other than zero. -/
theorem vecDiv_exact_eq_some {u r : Vec3 Rat} {t : Rat} (h : vecDiv (exactArith pi sqrt sin cos) u t = some r) :
    t ≠ 0 ∧ r = ⟨u.x / t, u.y / t, u.z / t⟩ := by
  by_cases ht : t = 0
  · simp [vecDiv, exactArith, ht] at h
  · simp only [vecDiv, div_exact _ ht, Option.bind_eq_bind, Option.bind_some, Option.some.injEq] at h
    exact ⟨ht, h.symm⟩

/-- R204: the ray is the cross product divided by its length, which is not zero. -/
theorem rayOfNormals_exact_eq_some {n m r : Vec3 Rat} (h : rayOfNormals (exactArith pi sqrt sin cos) n m = some r) :
    ∃ k, sqrt (ratDot (ratCross n m) (ratCross n m)) = some k ∧ k ≠ 0 ∧
      r = ⟨(ratCross n m).x / k, (ratCross n m).y / k, (ratCross n m).z / k⟩ := by
  simp only [rayOfNormals, cross_exact, dot_exact, Option.bind_eq_bind, Option.bind_some, Option.bind_eq_some_iff] at h
  obtain ⟨k, hk, hdiv⟩ := h
  exact ⟨k, hk, vecDiv_exact_eq_some hdiv⟩

/-- The ray of two normals is a unit vector and a positive multiple of their cross product. -/
theorem rayOfNormals_exact_unit (hsqrt : ∀ x y, sqrt x = some y → 0 ≤ y ∧ y * y = x) {n m r : Vec3 Rat}
    (h : rayOfNormals (exactArith pi sqrt sin cos) n m = some r) :
    r.x ^ 2 + r.y ^ 2 + r.z ^ 2 = 1 ∧
      ∃ k, 0 < k ∧ r.x * k = (ratCross n m).x ∧ r.y * k = (ratCross n m).y ∧ r.z * k = (ratCross n m).z := by
  obtain ⟨k, hk, hne, rfl⟩ := rayOfNormals_exact_eq_some h
  obtain ⟨hnonneg, hsq⟩ := hsqrt _ _ hk
  refine ⟨?_, k, lt_of_le_of_ne hnonneg hne.symm, div_mul_cancel₀ _ hne, div_mul_cancel₀ _ hne, div_mul_cancel₀ _ hne⟩
  rw [ratDot] at hsq
  field_simp
  linear_combination -hsq

/-- R204: the default normals. -/
theorem planeNormalRay_exact {θ1 θ2 s1 c1 s2 c2 : Rat} (hs1 : sin θ1 = some s1) (hc1 : cos θ1 = some c1)
    (hs2 : sin θ2 = some s2) (hc2 : cos θ2 = some c2) :
    planeNormalRay (exactArith pi sqrt sin cos) θ1 θ2 =
      rayOfNormals (exactArith pi sqrt sin cos) ⟨0, c2, s2⟩ ⟨c1, 0, -s1⟩ := by
  have hsin : (exactArith pi sqrt sin cos).sin = sin := rfl
  have hcos : (exactArith pi sqrt sin cos).cos = cos := rfl
  simp only [planeNormalRay, hsin, hcos, hs1, hc1, hs2, hc2, Option.bind_eq_bind, Option.bind_some]
  rfl

theorem ratCross_planeNormals (s1 c1 s2 c2 : Rat) :
    ratCross ⟨0, c2, s2⟩ ⟨c1, 0, -s1⟩ = ⟨-(s1 * c2), c1 * s2, -(c1 * c2)⟩ := by
  simp only [ratCross, Vec3.mk.injEq]
  exact ⟨by ring, by ring, by ring⟩

end UnitRay

/-- Settles O60: the length that the cross product is divided by is its exact root, and not zero. -/
theorem defaultRayIsUnit : Obligations.DefaultRayIsUnit := by
  intro pi sqrt sin cos hsqrt
  refine ⟨fun n m r h => rayOfNormals_exact_unit hsqrt h, fun θ1 θ2 s1 c1 s2 c2 r hs1 hc1 hs2 hc2 h => ?_⟩
  rw [planeNormalRay_exact hs1 hc1 hs2 hc2] at h
  have hunit := rayOfNormals_exact_unit hsqrt h
  rwa [ratCross_planeNormals] at hunit

section Parallel

/-! ## Lines of one direction -/

/-- A computation that goes on to `v` or meets a value that is not finite does so as a whole. -/
theorem bind_eq_or_none {α β : Type} {o : Option α} {f : α → Option β} {v : Option β}
    (h : ∀ a, o = some a → f a = v ∨ f a = none) : (o >>= f) = v ∨ (o >>= f) = none := by
  cases o with
  | none => exact .inr rfl
  | some a => exact h a rfl

theorem mulSub_self_eq_some {α : Type} {A : Arith α} {a z : α} (h : mulSub A a a a a = some z) :
    ∃ p, A.sub p p = some z := by
  simp only [mulSub, Option.bind_eq_bind, Option.bind_eq_some_iff] at h
  obtain ⟨p, hp, q, hq, hdiff⟩ := h
  cases hp.symm.trans hq
  exact ⟨p, hdiff⟩

/-- Where a difference of equal numbers is always below epsilon, two lines of one direction have no closest points: the
three dot products of R206 are one number, so `denom` is such a difference. -/
theorem closestApproach_of_parallel {α : Type} {A : Arith α} {eps : α}
    (hsub : ∀ x z, A.sub x x = some z → A.lt z eps = true) (p0 p1 d : Vec3 α) :
    closestApproach A eps p0 d p1 d = some none ∨ closestApproach A eps p0 d p1 d = none := by
  unfold closestApproach
  refine bind_eq_or_none fun w _ => bind_eq_or_none fun a ha => bind_eq_or_none fun b hb => bind_eq_or_none fun c hc =>
    bind_eq_or_none fun _ _ => bind_eq_or_none fun _ _ => bind_eq_or_none fun denom hdenom => .inl ?_
  cases ha.symm.trans hb
  cases ha.symm.trans hc
  obtain ⟨p, hdiff⟩ := mulSub_self_eq_some hdenom
  exact if_pos (hsub p denom hdiff)

variable {x z eps : FloatWord} {q : Rat}

/-! ## Binary32: the difference of equal numbers is zero -/

theorem b32Neg_toNat (x : FloatWord) : (b32Neg x).toNat = x.toNat ^^^ 2 ^ 31 :=
  BitVec.toNat_xor x 0x80000000

theorem b32Neg_toNat_mod (x : FloatWord) : (b32Neg x).toNat % 2 ^ 31 = x.toNat % 2 ^ 31 := by
  rw [b32Neg_toNat, Nat.xor_mod_two_pow, Nat.mod_self, Nat.xor_zero]

theorem b32Neg_toNat_lt (h : x.toNat < 2 ^ 32) : (b32Neg x).toNat < 2 ^ 32 := by
  rw [b32Neg_toNat]
  exact Nat.xor_lt_two_pow h (by decide)

theorem b32Sign_neg (x : FloatWord) : b32Sign (b32Neg x) = !b32Sign x := by
  rw [b32Sign, b32Neg_toNat, Nat.testBit_xor, Nat.testBit_two_pow_self, Bool.xor_true, b32Sign]

/-- The scaled significand of a binary32 word with bits `n`, without its sign. -/
def b32Magnitude (n : Nat) : Nat :=
  let field := n / 2 ^ 23 % 256
  (if field = 0 then n % 2 ^ 23 else n % 2 ^ 23 + 2 ^ 23) * 2 ^ (if field = 0 then 1 else field)

theorem b32Value_eq (x : FloatWord) : b32Value x =
    if x.toNat < 2 ^ 32 ∧ x.toNat / 2 ^ 23 % 256 ≠ 255 then
      some (mkRat (if b32Sign x then -(b32Magnitude x.toNat : Int) else b32Magnitude x.toNat) (2 ^ 150))
    else none := rfl

theorem b32Value_eq_some_iff : b32Value x = some q ↔
    (x.toNat < 2 ^ 32 ∧ x.toNat / 2 ^ 23 % 256 ≠ 255) ∧
      mkRat (if b32Sign x then -(b32Magnitude x.toNat : Int) else b32Magnitude x.toNat) (2 ^ 150) = q := by
  rw [b32Value_eq, Option.ite_none_right_eq_some, Option.some.injEq]

theorem b32Value_neg (h : b32Value x = some q) : b32Value (b32Neg x) = some (-q) := by
  obtain ⟨⟨hlt, hfinite⟩, rfl⟩ := b32Value_eq_some_iff.mp h
  have hmod := b32Neg_toNat_mod x
  have hfield : (b32Neg x).toNat / 2 ^ 23 % 256 = x.toNat / 2 ^ 23 % 256 := by omega
  have hfraction : (b32Neg x).toNat % 2 ^ 23 = x.toNat % 2 ^ 23 := by omega
  have hmagnitude : b32Magnitude (b32Neg x).toNat = b32Magnitude x.toNat := by
    simp only [b32Magnitude, hfield, hfraction]
  refine b32Value_eq_some_iff.mpr ⟨⟨b32Neg_toNat_lt hlt, hfield ▸ hfinite⟩, ?_⟩
  rw [hmagnitude, b32Sign_neg, Rat.neg_mkRat]
  cases b32Sign x
  · rfl
  · simp

theorem b32Value_zero : b32Value 0 = some 0 :=
  b32Value_eq_some_iff.mpr ⟨by decide, Rat.zero_mkRat _⟩

/-- A difference of equal numbers is a zero. -/
theorem b32_sub_self (h : binary32.sub x x = some z) : b32Value z = some 0 := by
  obtain ⟨v, hv, w, hw, hround⟩ : ∃ v, b32Value x = some v ∧ ∃ w, b32Value (b32Neg x) = some w ∧
      b32Round (b32Sign x && b32Sign (b32Neg x)) (v + w) = some z := by
    simpa only [binary32, b32Add, Option.bind_eq_bind, Option.bind_eq_some_iff] using h
  cases (b32Value_neg hv).symm.trans hw
  rw [add_neg_cancel, b32Sign_neg, Bool.and_not_self] at hround
  cases hround
  exact b32Value_zero

/-- Epsilon of an instantiation that meets R10 is a positive number. -/
theorem b32Value_pos (hpos : 0 < eps.toNat) (hlt : eps.toNat < 0x7F800000) : ∃ e, b32Value eps = some e ∧ 0 < e := by
  have hsign : b32Sign eps = false := Nat.testBit_lt_two_pow (by omega)
  have hmagnitude : 0 < b32Magnitude eps.toNat := by
    refine Nat.mul_pos ?_ (Nat.two_pow_pos _)
    split_ifs
    · omega
    · omega
  refine ⟨_, b32Value_eq_some_iff.mpr ⟨⟨by omega, by omega⟩, rfl⟩, ?_⟩
  rw [hsign]
  exact Rat.mkRat_pos (Int.natCast_pos.mpr hmagnitude) (Nat.two_pow_pos 150).ne'

theorem b32Lt_of_value {a b : Rat} (hx : b32Value x = some a) (hz : b32Value z = some b) : b32Lt x z = decide (a < b) := by
  simp [b32Lt, hx, hz]

end Parallel

/-- Settles O58: in binary32 the denominator of two lines of one direction is zero, which is below epsilon. -/
theorem parallelLinesNeverSolve : Obligations.ParallelLinesNeverSolve := by
  intro c p0 p1 d hnumerics hwf
  have heps : c.epsOk = true := by
    simp only [Config.wellFormed, Bool.and_eq_true] at hwf
    obtain ⟨⟨⟨-, heps⟩, -⟩, -⟩ := hwf
    exact heps
  rw [Config.epsOk, hnumerics] at heps
  obtain ⟨hpos, hlt⟩ := of_decide_eq_true heps
  obtain ⟨e, hvalue, he⟩ := b32Value_pos hpos hlt
  rw [hnumerics]
  exact closestApproach_of_parallel (A := binary32)
    (fun x z hdiff => (b32Lt_of_value (b32_sub_self hdiff) hvalue).trans (decide_eq_true he)) p0 p1 d

end Sys2Proof.Machine

/-! The step function (60_exceptions.md R250, R251): its answers when the oldest event decodes and when there is none.
`step_of_not_mem` is the answer to a code that names no operation. -/

namespace Sys2Proof.Machine

section StepAnswers

variable {s : State} {e : Event} {rest : List Event} {i : Instr}

theorem step_of_decode (hin : s.inbox = e :: rest) (hd : decode e = .ok i) :
    step s = exec i { s with inbox := rest } := by
  simp only [step, hin, hd]

theorem step_of_idle (hin : s.inbox = []) : step s = .next s := by
  simp only [step, hin]

end StepAnswers

/-- Settles O5: an event is taken and run as the operation it decodes to, and without one the state is held. -/
theorem stepRunsDecodedEvent : Obligations.StepRunsDecodedEvent :=
  ⟨fun _ _ _ _ => step_of_decode, fun _ => step_of_idle⟩

end Sys2Proof.Machine
